-- ==== Sys2Proof/Word.lean ====
section
/-! DEFINITION. The widths the manual gives its words (R8, R118): a byte of a line or a sequence, a 24-bit
register, a 48-bit chain time, and the position of a field inside a register. -/
namespace Sys2Proof

/-- One byte of a chain sequence, a console character or an image. -/
abbrev Byte := BitVec 8

/-- A register of the unit: every register is 24 bits wide (chapter 0). -/
abbrev Word := BitVec 24

/-- Chain time: a 48-bit count of microseconds (R118). -/
abbrev ChainTime := BitVec 48

/-- A character of the chain: the K flag in bit 8, the data in bits 7 to 0 (R131). -/
abbrev ChainChar := BitVec 9

/-- The address of a register: the block in bits 15 to 8, the index in bits 7 to 0 (R173, Table 17.1). -/
abbrev RegAddr := BitVec 16

end Sys2Proof
end

