-- ==== Sys2Proof/Config.lean ====
section
/-! DEFINITION. What one implementation or one environment fixes and the manual leaves open: free values. None has a
body, so nothing can be proved of its value. -/
namespace Sys2Proof

/-- The n-th nonce the internal random source draws (R386). -/
opaque Config.nonce : Nat → ChainTime

/-- Whether an nRST low between 1 µs and 5 µs resets the unit (R82), by the microsecond of the model's clock and its length in ns. -/
opaque Config.pinResets (n lowNs : Nat) : Bool

/-- For how many microseconds a rail (2 VDD, 3 VIO, 4 VDDA) stays below its brown-out threshold after the assertion at microsecond `n` of the
model's clock (R38, R81): what becomes of a rail is no rule of the manual. -/
opaque Config.railLowFor (rail n : Nat) : Nat

/-- What the header of an image says (R98); the manual gives no byte layout. Version, interface level, size and
SHA-256 digest of the body, and the tested-with table of steppings and interface levels; none where the bytes hold no
well-formed header. -/
opaque Config.imageHeader : List Byte → Option (Word × BitVec 8 × Nat × List Byte × List (BitVec 8 × BitVec 8))

/-- The body of an image, over which the digest is taken (R98); the manual gives no byte layout. -/
opaque Config.imageBody : List Byte → List Byte

/-- The offset of the XO against CK in microsecond `n` of the model's clock, in 0.01 ppm (R127): the frequency of a crystal is no rule
of the manual. -/
opaque Config.xoOffset (n : Nat) : Word

/-- By how much the IRC runs fast in microsecond `n` of the model's clock, in 0.01 ppm (R127, Table 5.8): within its accuracy no rule of the
manual gives it. -/
opaque Config.ircOffset (n : Nat) : Int

/-- What BSNS carries at microsecond `n` of the model's clock, in mV (R288): no rule of the manual. -/
opaque Config.bsns (n : Nat) : Nat

/-- What BFB carries at microsecond `n` of the model's clock, in 0.1 V (R288): no rule of the manual. -/
opaque Config.bfb (n : Nat) : Nat

/-- By how much the charger's target lies beside PWR.HLD_V, in 1/1000, within 3 % (Table 16.5). -/
opaque Config.chargeVolts (n : Nat) : Int

/-- By how much the charger's current limit lies beside PWR.HLD_I, in 1/1000, within 10 % (Table 16.5). -/
opaque Config.chargeAmps (n : Nat) : Int

/-- Whether the current of channel `c` has reached the threshold of its phase at microsecond `n` of the model's clock (R282): what the coil
draws is no rule of the manual. -/
opaque Config.coilReaches (c n : Nat) : Bool

/-- How far CK goes in microsecond `n` of the model's clock while no rate is recognised, in 1/500 000 cycle (R113): it may be missing, or at no rate
of Table 5.2. -/
opaque Config.unknownCk (n : Nat) : Nat

/-- Whether the ambient temperature has changed by 2 °C at most since the holdover began, at microsecond `n` of the model's clock (Table 5.8). -/
opaque Config.ambientSteady (n : Nat) : Bool

/-- A supervisor of Table 16.5: VBAT_LOW and its filter, VBATGOOD's return, the trip and the release of R36, and the setting and clearing of
HLDOK; and the comparators of Tables 16.9 and 16.10 whose quantity the unit is told: PEAK and HOLD of a coil, open load, and the converter's ILIM and
TARGET. -/
inductive Supervisor where
  | vbatLow
  | vbatFilter
  | vbatReturn
  | vbatTrip
  | vbatRelease
  | hldSet
  | hldClear
  | coil (c : Nat)
  | openLoad (c : Nat)
  | boostIlim
  | boostTarget
deriving DecidableEq, Repr

/-- Whether a supervisor acts, at microsecond `n` of the model's clock, on what lies within the band of its threshold (R400): where in the band
a unit's threshold stands is no rule of the manual. -/
opaque Config.inBand (k : Supervisor) (n : Nat) : Bool

/-- The AIN code that a conversion below 2.4 V of VDDA, or with no reference, gives (R407): no stated meaning. -/
opaque Config.ainCode : Nat → BitVec 14

/-- Whether the sync pulse that slice `i` sends at a tick takes 3 receiving cycles and not 2 on its way to the next (R315). -/
opaque Config.syncLate (i tick : Nat) : Bool

/-- The measurement of loop `l` at microsecond `n` of the model's clock while its source is off or has never converted
(R340, R347): no value is stated. -/
opaque Config.lostPv (l n : Nat) : Word

end Sys2Proof
end

