-- ==== Sys2Proof/Syntax.lean ====
section
/-! DEFINITION. The commands the block takes: one constructor of `Instr` for each row of spec/opcode_table.json,
with the operands the row's rule gives it. The first rows are what happens at the unit's pins, clocks, timers and
sensors; the rows from `id` on are the Manil lines the purser executes (Table 7.7). A line carries its source and
its address form, its arguments as the grammar of R169 to R175 gives them. -/
namespace Sys2Proof

/-- The two ports of a unit (glossary, R129). -/
inductive Port where
  | bow
  | stern
deriving DecidableEq, Repr, Inhabited

/-- The two command sources of a unit (R212). -/
inductive Source where
  | chain
  | console
deriving DecidableEq, Repr, Inhabited

/-- The address forms of Table 7.3, with the numbers as they are written in the line. -/
inductive AddrForm where
  | unit (n : Nat)
  | range (n m : Nat)
  | all
  | zero
  | self
deriving DecidableEq, Repr, Inhabited

/-- What every line carries: where it came from and whom it designates. -/
structure LineHdr where
  src : Source
  addr : AddrForm
deriving DecidableEq, Repr, Inhabited

/-- The five base-unit suffixes a typed number may carry (R172). -/
inductive Suffix where
  | mA
  | ms
  | mm
  | hz
  | percent
deriving DecidableEq, Repr, Inhabited

/-- A number of a line: its value and the suffix it carries, if any (R172); `minusZero` says that it was written as a `-` before 0 where no negative
value is taken, its value then −1, so that it is refused as one. -/
structure LineNum where
  val : Int
  suffix : Option Suffix := none
  minusZero : Bool := false
deriving DecidableEq, Repr, Inhabited

/-- A path argument: a numeric address, or a name; a name of no register is kept as `unknown` (R173, R411). -/
inductive PathArg where
  | reg (a : RegAddr)
  | unknown (name : String)
deriving DecidableEq, Repr, Inhabited

/-- An item of a channel list (R174). -/
inductive ChanItem where
  | one (n : Nat)
  | range (a b : Nat)
  | all
deriving DecidableEq, Repr, Inhabited

/-- The ends of a motorised valve. -/
inductive ValveEnd where
  | open_
  | closed
deriving DecidableEq, Repr, Inhabited

/-- The action word of CROSS (Table 10.2). -/
inductive CrossAction where
  | open_
  | close
  | duty
deriving DecidableEq, Repr, Inhabited

/-- The four image slots (R98). -/
inductive Slot where
  | pa
  | pb
  | la
  | lb
deriving DecidableEq, Repr, Inhabited

/-- A date argument of TIME, in the fields of its ISO 8601 shape (R175). -/
structure DateArg where
  year : Nat
  month : Nat
  day : Nat
  hour : Nat
  minute : Nat
  second : Nat
deriving DecidableEq, Repr, Inhabited

/-- What arrives of a frame at a receiver (R136): a whole frame with its data characters; a line or notice frame that a SOL or a
NOTICE cuts, with the data characters it had; an EOL outside a frame; a data character of no frame and no sequence. -/
inductive FrameArrival where
  | line (text : List Byte)
  | notice (text : List Byte)
  | cutLine (text : List Byte)
  | cutNotice (text : List Byte)
  | strayEol
  | strayData (b : Byte)
deriving DecidableEq, Repr, Inhabited

/-- What arrives of a control sequence (R137): all the characters after its control character, the CRC last; or the
characters of a sequence that a control character among them has cut. -/
inductive SeqArrival where
  | whole (bytes : List Byte)
  | cut (bytes : List Byte)
deriving DecidableEq, Repr, Inhabited

/-- A console character as the receiver reports it (R199). -/
structure ConsoleChar where
  ch : Byte
  framingError : Bool := false
  overrun : Bool := false
deriving DecidableEq, Repr, Inhabited

/-- What an encoder port sampled in one read (R225): EDI at the start, the bits most significant first as one
number, the tail bit, and whether EDI was high again in time. -/
structure EncoderRead where
  startHigh : Bool
  bits : Word
  tail : Bool
  endHigh : Bool
deriving DecidableEq, Repr, Inhabited

/-- The two half-bridges of a predriver. -/
inductive Half where
  | a
  | b
deriving DecidableEq, Repr, Inhabited

/-- The two channels of a safety pair. -/
inductive PairChannel where
  | a
  | b
deriving DecidableEq, Repr, Inhabited

/-- The commands of the block, one for each row of the opcode table. -/
inductive Instr where
  -- the chain
  | lineFrame (port : Port) (fr : FrameArrival)
  /-- A character the console receiver took (R199). -/
  | consoleCharacter (c : ConsoleChar)
  /-- A character of neither K = 0 nor K.00 to K.0C (R134). -/
  | invalidCharacter (port : Port) (ch : ChainChar)
  | receiverAligned (port : Port)
  | alignmentLost (port : Port)
  /-- The unit inserts its next frame on UP; `arriving` reaches the UP buffer meanwhile (R140). -/
  | upInsertion (arriving : List ChainChar)
  | kill (port : Port)
  | tide (seq : SeqArrival)
  | tideApply
  | domainGroupOn
  | enumMeasure (seq : SeqArrival)
  /-- An echo K.05: whether it came in answer from a helm, and its round trip in 1/4096 µs (R147). -/
  | enumEcho (fromHelm : Bool) (roundTrip : Nat)
  | enumAssign (seq : SeqArrival)
  | enumHop (seq : SeqArrival)
  | enumQuietExpiry
  | turnEnum (seq : SeqArrival)
  | turnSweep (seq : SeqArrival)
  | turnSweepTimeout
  | helmq (port : Port) (seq : SeqArrival)
  | helmg (port : Port) (seq : SeqArrival)
  | helmd (port : Port) (seq : SeqArrival)
  | helmqExpiry
  /-- The time sequence, complete `sub`/256 µs into the present microsecond (R122 to R124). -/
  | timeSequence (seq : SeqArrival) (sub : Byte)
  | downstreamLinkLost
  | downstreamLinkUp
  | holdoverEntry
  /-- The ports at which the 16 CK edges have arrived (R157). -/
  | upstreamPortTaken (bow stern : Bool)
  -- clocks
  /-- The code of Table 5.2; 0 for a CK at none of its rates (R112, R113). -/
  | rateRecognised (code : Fin 16)
  | rateLost
  | clpllLock
  | xoStable
  | xoFail
  | ircFail
  | ircRecovery
  | lxoFail
  | lxoRecovery
  | thiWrap
  -- resets and power
  | powerOn
  | brownVdd
  | brownVio
  | brownVdda
  /-- How long nRST was low, in ns (R82). -/
  | pin (lowNs : Nat)
  | watchdog
  | software
  | debug
  | debugHalt
  | clockFail
  | lockupPurser
  | lockupPilot
  | resetRelease
  | ckWake (port : Port)
  | wakePin
  /-- The strap pins, the check of step 1 to 3 that failed if any, and whether CK has shown an edge by the time it is judged (Table 3.5, R95). -/
  | powerUp (strap : Fin 16) (failedCheck : Option Word) (ckEdgeSeen : Bool)
  | firmwareBoot
  | powerDown
  /-- VBAT in 0.1 V when its time below VBAT_LOW has run (R59, R68). -/
  | handover (vbat : Nat)
  /-- VBAT in 0.1 V (R75). -/
  | vbatReturn (vbat : Nat)
  | hoTimeout
  | handoverReturn
  /-- VBAT in 0.1 V (R36). -/
  | vbatHigh (vbat : Nat)
  /-- VBAT in 0.1 V (R36). -/
  | vbatHighRelease (vbat : Nat)
  -- motion
  /-- The accepted pin level, the chain time of its first sample, the sample cycles since the last edge that measures, and whether the other input of its pair changed with it (R221 to R224, R240). -/
  | finEdge (n : Fin 8) (level : Bool) (stamp : ChainTime) (cycles : Nat) (partnerToo : Bool)
  | finStopped (n : Fin 8)
  | encoderRead (p : Fin 4)
  /-- What the port sampled (R225). -/
  | encoderReadEnd (p : Fin 4) (r : EncoderRead)
  | odoStop
  | speedStale
  -- crossings
  | watch
  | cast (c : Fin 40)
  | armatureDip (c : Fin 32)
  | closeLanding (c : Fin 32)
  | valveLanding (v : Fin 8)
  -- solenoid banks
  | boostGrant (b : Fin 8)
  /-- The filtered coil current at the end of BOOST, in mA (R281, R289). -/
  | boostEnd (c : Fin 32) (filtered : Nat)
  | peakEnd (c : Fin 32)
  | offComplete (c : Fin 32)
  | offwaitEnd (c : Fin 32)
  | bnrwaitExpiry (b : Fin 8)
  /-- VBST in 0.1 V (R286). -/
  | boostReady (vbst : Nat)
  /-- VBST in 0.1 V (R286, R287). -/
  | notReady (vbst : Nat)
  /-- VBST in 0.1 V (R288). -/
  | ov (vbst : Nat)
  /-- VBST in 0.1 V (R288). -/
  | startFail (vbst : Nat)
  | pulsePeriodStart (c : Fin 32)
  | pulseOnEnd (c : Fin 32)
  | olOff (c : Fin 32)
  | sb (c : Fin 32)
  /-- The channel that was being turned on, where one was (R303). -/
  | sg (b : Fin 8) (named : Option (Fin 4))
  /-- The junction temperature in °C (R303). -/
  | otw (b : Fin 8) (temp : Int)
  /-- The junction temperature in °C (R303). -/
  | ots (b : Fin 8) (temp : Int)
  | actuationCountSave
  -- slices and valves
  | periodStart (k : Fin 12)
  | bootstrapRefresh (v : Fin 8) (h : Half)
  /-- The taps K that the calibrator measured (R313). -/
  | calibration (taps : Nat)
  /-- The level the filter accepted: active or not (R320). -/
  | fltTrip (g : Fin 3) (active : Bool)
  /-- The filtered level of the pin, before INV (R326). -/
  | limitInput (v : Fin 8) (e : ValveEnd) (level : Bool)
  | valveTimedEnd (v : Fin 8)
  | homeTimeout (v : Fin 8)
  | brakeEnd (v : Fin 8)
  | positionUpdate
  -- the pilot
  | loopSample (l : Fin 8)
  /-- `computed` says that the loop's computation has ended in time (R337, R338). -/
  | loopWrite (l : Fin 8) (computed : Bool)
  /-- The voltage of the input and of the reference in µV; reference 0 for one that is no usable reference (R353, R354). -/
  | ainConversion (vin vref : Nat)
  | traceCapture (b : Fin 4)
  -- safety and musters
  /-- The filtered level of a channel, and whether the other channel's changes in the same sample (R360 to R365). -/
  | safetyInput (p : Fin 4) (ch : PairChannel) (level both : Bool)
  | discrepancyFault (p : Fin 4)
  | run10 (p : Fin 4)
  | musterSample
  | musterExpiry
  -- recorder and calendar
  | recordCommit
  | recordsLost
  | optimeStep
  | rateWindowEnd
  | nonceExpiry (src : Source)
  | authExpiry (src : Source)
  | lockoutEnd (src : Source)
  | calEnd
  -- Manil lines
  | id (ln : LineHdr)
  | state (ln : LineHdr)
  | get (ln : LineHdr) (paths : List PathArg)
  | set (ln : LineHdr) (pairs : List (PathArg × LineNum))
  | pwmDisWrite (ln : LineHdr) (value : LineNum)
  | pwmDutyWrite (ln : LineHdr) (k : Fin 12) (value : LineNum)
  | ptgtWrite (ln : LineHdr) (v : Fin 8) (value : LineNum)
  | vselWrite (ln : LineHdr) (value : LineNum)
  | ownerKeyWrite (ln : LineHdr) (k : Fin 6) (value : LineNum)
  | counterClear (ln : LineHdr) (path : PathArg) (value : LineNum)
  | tune (ln : LineHdr) (path : PathArg) (value : LineNum)
  | commit (ln : LineHdr)
  | abort (ln : LineHdr)
  | save (ln : LineHdr)
  | saveReach (ln : LineHdr)
  | imageList (ln : LineHdr)
  | imageOpen (ln : LineHdr) (slot : Slot) (size : LineNum)
  | imageData (ln : LineHdr) (offset : LineNum) (data : List Byte)
  | imageClose (ln : LineHdr)
  | imageCancel (ln : LineHdr)
  | imageRetire (ln : LineHdr) (slot : Slot)
  | imageAcceptUntested (ln : LineHdr)
  | reset (ln : LineHdr) (level : Option LineNum)
  | anchor (ln : LineHdr)
  | moor (ln : LineHdr)
  | arm (ln : LineHdr)
  | go (ln : LineHdr)
  | halt (ln : LineHdr)
  | killLine (ln : LineHdr)
  | resume (ln : LineHdr)
  | openVerb (ln : LineHdr) (chans : List ChanItem)
  | close (ln : LineHdr) (chans : List ChanItem)
  | pulse (ln : LineHdr) (chans : List ChanItem) (f d : LineNum) (p : Option LineNum)
  | home (ln : LineHdr) (chans : List ChanItem) (target : Option ValveEnd)
  | drive (ln : LineHdr) (ch duty : LineNum)
  | cross (ln : LineHdr) (ch pos : LineNum) (action : CrossAction) (crossId : LineNum) (duty flags : Option LineNum)
  | recallOne (ln : LineHdr) (ch crossId : LineNum)
  | recallChannelAll (ln : LineHdr) (ch : LineNum)
  | recallAll (ln : LineHdr)
  | shut (ln : LineHdr) (chans : List ChanItem)
  | free (ln : LineHdr) (chans : List ChanItem)
  | speed (ln : LineHdr) (v w : LineNum)
  | time (ln : LineHdr)
  | timeSet (ln : LineHdr) (date : DateArg)
  | muster (ln : LineHdr) (t : LineNum) (paths : List PathArg)
  | musterRecall (ln : LineHdr) (t : LineNum)
  | traceStatus (ln : LineHdr) (b : LineNum)
  | traceArm (ln : LineHdr) (b : LineNum)
  | traceForce (ln : LineHdr) (b : LineNum)
  | traceStop (ln : LineHdr) (b : LineNum)
  | traceDump (ln : LineHdr) (b i : LineNum)
  | log (ln : LineHdr) (seq count : Option LineNum)
  | auth (ln : LineHdr)
  | authResponse (ln : LineHdr) (response : List Byte)
  | clearLog (ln : LineHdr)
  | clearFlt (ln : LineHdr) (g : LineNum)
  | clearChannels (ln : LineHdr) (chans : List ChanItem)
  | helm (ln : LineHdr)
  | enum (ln : LineHdr)
  | adopt (ln : LineHdr) (serial : ChainTime) (n : LineNum)
  | lockConsole (ln : LineHdr)
  | lockNone (ln : LineHdr)
  | queryList (ln : LineHdr)
  | queryVerb (ln : LineHdr) (verb : String)
  | queryPath (ln : LineHdr) (path : PathArg)
  -- supplies, comparators and gate drive
  /-- VBAT and VHLD in 0.1 V (R59, R79). -/
  | vbatGood (vbat vhld : Nat)
  /-- The filtered coil current at the start of the period, in mA (R282, R289). -/
  | choppingPeriod (c : Fin 32) (current : Nat)
  /-- Whether VGD recovers or falls (R400). -/
  | vgdUndervoltage (recovered : Bool)
  /-- Whether the bootstrap recovers or falls (R406). -/
  | bootstrapUndervoltage (v : Fin 8) (h : Half) (recovered : Bool)
deriving DecidableEq, Repr

end Sys2Proof
end

