-- ==== Sys2Proof/Machine/State.lean ====
section
/-! DEFINITION. The state of one unit as plain data: every register, queue, counter, latch, timer and pin level the
manual gives it, the model's own fields (named as such), and the queue of commands that wait. The ST, LV and
plain RW registers are held in one sparse register file (`State.regs`); every status register is read from the
typed fields by Machine/Flags.lean. Field defaults are the values after reset. -/
namespace Sys2Proof.Machine

open Sys2Proof

/-! ### Reasons a step can stop -/

/-- The machine stops with a fault: the manual names no command after which the unit stops, so there is none.
No meaning raises one. Safe: nothing is stopped that the hardware would go on from. -/
inductive Fault where
deriving DecidableEq, Repr

/-- No meaning for a command. -/
inductive Refusal where
  /-- Raised by an arm of `exec` whose command has no meaning in this model yet. Safe: the model stops where the
  hardware goes on. -/
  | notModelled (mnemonic : String)
deriving DecidableEq, Repr

/-! ### Text the unit sends -/

/-- An element of a reply or a notice (R176, R180): a word, a decimal number, a serial number of 12 hexadecimal
digits, or a hexadecimal block of 6 digits for each entry. -/
inductive Tok where
  | word (s : String)
  | num (n : Int)
  | serial (n : ChainTime)
  | block (entries : List Word)
deriving DecidableEq, Repr

/-- A refusal of a line: the code of Table 7.4 and the detail. -/
structure Err where
  code : Nat
  detail : List Tok := []
deriving DecidableEq, Repr

/-- What a line is answered with (R180). -/
inductive ReplyBody where
  | ok (text : List Tok)
  | err (e : Err)
deriving DecidableEq, Repr

/-- A frame or sequence of the unit's own that waits for its place on UP (R140); `reset` marks the reply of a line whose reset
follows once it has left (R85). -/
inductive UpItem where
  | reply (body : ReplyBody) (reset : Bool)
  | notice (text : List Tok)
  | seq (code : Byte) (bytes : List Byte)
deriving DecidableEq, Repr

/-- What a port sends in the present microsecond: a frame, the front of a frame that was cut, a control sequence or a single
character. -/
inductive WireItem where
  | frame (kind : Byte) (text : List Byte)
  | cut (kind : Byte) (text : List Byte)
  | seq (code : Byte) (bytes : List Byte)
  | char (c : ChainChar)
deriving DecidableEq, Repr

/-! ### The chain -/

/-- One port: whether its receiver is aligned (R133) and its six error counters (Table 6.9, R167). -/
structure PortState where
  aligned : Bool := false
  eChar : Word := 0
  eCrc : Word := 0
  eAlign : Word := 0
  eFrame : Word := 0
  eCkLoss : Word := 0
  eLink : Word := 0
deriving DecidableEq, Repr

/-- A sweep the unit forwarded downstream and whose TURN has not passed (R153): the CRC-8 of its data characters and its
sequence number (Table 6.6); `isEnum` marks an enumeration, whose TURN is of kind ENUM, and `own` one whose TURN the unit itself sends. -/
structure Sweep where
  crc : Byte
  seq : Byte
  isEnum : Bool := false
  own : Bool := false
deriving DecidableEq, Repr

/-- A TURN an end unit still owes for a sweep line: sent after its own reply, or at `due` (R153). -/
structure TurnDue where
  crc : Byte
  seq : Byte
  due : Nat
deriving DecidableEq, Repr

/-- A helm swap request that is pending (R160). -/
structure HelmReq where
  target : Port
  arrived : Port
  due : Nat
deriving DecidableEq, Repr

/-- When a pending tide applies (R144, R145): at a chain time, or 2 ms after its K.03, a late one keeping the target it
named. -/
inductive TideDue where
  | atTime (t : ChainTime)
  | late (due : Nat) (target : Word)
deriving DecidableEq, Repr

/-- A pending tide with the writes staged for it (R146). -/
structure PendingTide where
  seq : Nat
  due : TideDue
  writes : List (RegAddr × Word)
deriving DecidableEq, Repr

/-- The chain ports and their protocol state (chapter 6). `hadPort` says an upstream port has been taken since reset; `farPort` is the port that heard the helm's echo; `gangway`
that the I/O ring forwards for a core that does not, from `gangwayFrom` on, in `clk`, and `gangwayUp` its upstream side (R63, R163); `upHeld` the
notices that a helm swap holds (R162). `upBusy` is how long UP is still taken up by what has been put on it, in 1/4800 µs, `upLeft` how
many characters of a frame or sequence the UP buffer still owes of the one it has begun, and `upSince` how many characters have been
inserted since the last run of 8 IDLE (R135, R140). -/
structure Chain where
  addr : BitVec 8 := 0
  serial : ChainTime := 0
  upPort : Port := .bow
  hadPort : Bool := false
  released : Bool := true
  bow : PortState := {}
  stern : PortState := {}
  dnLink : Bool := false
  freeEnd : Bool := false
  farHelm : Bool := false
  farPort : Port := .stern
  gangway : Bool := false
  gangwayUp : Port := .bow
  gangwayFrom : Nat := 0
  enumDue : Option Nat := none
  echoes : Nat := 0
  echoSum : Nat := 0
  echoHelm : Bool := false
  downHop : BitVec 16 := 0
  downHopValid : Bool := false
  hopB : Nat := 0
  hopBValid : Bool := false
  hopS : Nat := 0
  hopSValid : Bool := false
  sweepSeq : Byte := 0
  outstanding : List Sweep := []
  turnsDue : List TurnDue := []
  helmReq : Option HelmReq := none
  swapHold : Bool := false
  evt : BitVec 12 := 0
  eNlost : Word := 0
  upQ : List UpItem := []
  upHeld : List UpItem := []
  upBuf : List ChainChar := []
  upBusy : Nat := 0
  upLeft : Nat := 0
  upSince : Nat := 0
  upWire : List WireItem := []
  dnWire : List WireItem := []
deriving DecidableEq, Repr

/-! ### Clocks -/

/-- The reference of the CLPLL (CLK.STAT.REF). -/
inductive ClkRef where
  | irc
  | xo
  | ck
deriving DecidableEq, Repr

/-- The four time modes (Table 5.4). -/
inductive TimeMode where
  | unset
  | track
  | coast
  | holdover
deriving DecidableEq, Repr

/-- Oscillators, CLPLL and chain time mode (chapter 5). `slew` is what is still to be removed by slewing and
`timeFrac` the fraction of the present microsecond, both in parts of a microsecond of which `timeUnit` make one; a `timeFrac` of one
microsecond or more says that the next one has begun too. `fofsSum` and `fofsN` are the sum and the number of the XO offsets of the
present second (R127). `trackUs` is how long TRACK has stood, in HOLDOVER how long it had at entry (Table 5.8). `wrapDue` says that the last microsecond of chain time is over and the wrap still to come (R118), `lxoStopped` that the
LXO has stopped and is not yet judged so (R111, R396). -/
structure Clocks where
  ref : ClkRef := .irc
  lock : Bool := false
  mode : TimeMode := .unset
  aligned : Bool := false
  xoStable : Bool := false
  ircOk : Bool := true
  lxoOk : Bool := true
  safetyOnXo : Bool := false
  rate : Fin 16 := 0
  lastRate : Fin 16 := 0
  holdIrc : Bool := false
  evt : BitVec 9 := 0
  terr : Word := 0
  fofs : Word := 0
  fofsSum : Int := 0
  fofsN : Nat := 0
  slew : Int := 0
  timeFrac : Nat := 0
  trackUs : Nat := 0
  wrapDue : Bool := false
  lxoStopped : Bool := false
deriving DecidableEq, Repr

/-- The spread-spectrum modulator of a clock domain (R115): its register as it took it at the last crossing of the nominal frequency, where it is in
its triangle, in 1/1000 of a modulation period, and how many cycles the domain has made, in 1/500 000. -/
structure Modulator where
  cfg : Word := 0x40
  pos : Nat := 0
  cycles : Nat := 0
deriving DecidableEq, Repr

/-- CKOUT (R117): since when the source of the output that CLK.CKOUT names counts, how far it has gone since, and how far it goes before the output
starts; after a tide that changed it the value it had and when the high phase that is then completed ends. Times in 1/4800 µs of the model's clock,
cycles in 1/500 000. -/
structure Ckout where
  start : Nat := 0
  wait : Nat := 0
  cycles : Nat := 0
  old : Option (Word × Nat) := none
deriving DecidableEq, Repr

/-! ### Power, reset and boot -/

/-- The handover that runs (R68 to R72): the latched action and time limit, the `clk` of its trigger, whether it began in
DRYDOCK, whether it has come to its steps 2 to 5, 0.8 ms after the trigger (Table 3.7), the valves whose run has ended with a limit
fault (R70), and the sequence number after the last record of its step 1 (R77). -/
structure Handover where
  hoAct : Word
  hoTime : Nat
  started : Nat
  inDrydock : Bool
  acting : Bool := false
  faulted : BitVec 8 := 0
  mark : Word := 0
deriving DecidableEq, Repr

/-- The wake source shown in PWR.STAT [5:4]. -/
inductive WakeSource where
  | reset
  | bow
  | stern
  | pin
deriving DecidableEq, Repr

/-- Power domains and supplies (chapter 3). `vbatOver` says VBAT is known above 36 V, `vbatHigh` that the keeper holds the outputs for it
(R36). `on` is the effective state of PD000 to PD113; `downUntil` the end of the last
power-down, in `clk`; `wakeDown` that a wake arrived within it (R66); `pinToo` that a WAKE pin wake has made the power-up
irreversible (R65); `wakeArmed` the wake sources PWR.WAKE had armed at the power-down (R60, R61); `lowSince` since when VBAT is known below
PWR.VBAT_LOW with VBATGOOD still 1, in `clk` (R59); `handed` that a handover is over and the unit has not left SAFE since (R347). -/
structure Power where
  on : BitVec 114 := 0
  switching : List Nat := []
  groupDue : Nat := 0
  vbatGood : Bool := false
  hldOk : Bool := false
  up : Bool := false
  wake : WakeSource := .reset
  evt : BitVec 5 := 0
  vbat : Nat := 0
  vhld : Nat := 0
  vbatOver : Bool := false
  vbatHigh : Bool := false
  handover : Option Handover := none
  returnAt : Option Nat := none
  returnArmed : Bool := false
  anchorDue : Option Nat := none
  vgdLow : Bool := false
  downUntil : Nat := 0
  wakeDown : Bool := false
  pinToo : Bool := false
  wakeArmed : BitVec 3 := 0
  lowSince : Option Nat := none
  handed : Bool := false
deriving DecidableEq, Repr

/-- Where the unit stands between power and operation (Tables 3.5, 3.6, 4.7). -/
inductive Phase where
  | inReset
  | powerUp
  | boot
  | running
  | anchored
deriving DecidableEq, Repr

/-- A RESET line that has executed (R85, R86): its Reach and its delay in µs; `unsent` that its reply is still to be made,
`due` the assertion's time once the reply has left. -/
structure SoftReset where
  reach : Nat
  delay : Nat
  unsent : Bool := true
  due : Option Nat := none
deriving DecidableEq, Repr

/-- The reset controller (chapter 4). `table` is RST.REACH in force; `fused` the one-time table, taken in by the next
reset (R89). `cause` and `level` are those of the reset that runs; `lastCause` is RST.CAUSE. `fromStep` is the power-up step the
restart begins at, 0 for the firmware boot; `fromReset` that a reset and no wake began the power-up, `coldBoot` that the boot
follows a power-up. `assertedAt` and `holdUntil` bound the assertion, `activeUntil` is the last
moment at which a source is known to be active, and `wdtSince` when the watchdog last started its count anew, in `clk` (R81 to R83). -/
structure ResetCtl where
  cause : BitVec 4 := 0
  level : Nat := 4
  lastCause : Word := 0
  table : BitVec 22 := 0x06165F
  fused : Option (BitVec 22) := none
  strap : BitVec 4 := 15
  stepping : Word := 0x11
  soft : Option SoftReset := none
  halted : Bool := false
  fromStep : Nat := 1
  fromReset : Bool := true
  coldBoot : Bool := true
  assertedAt : Nat := 0
  holdUntil : Nat := 0
  activeUntil : Nat := 0
  wdtSince : Nat := 0
deriving DecidableEq, Repr

/-- The state of an image slot (BOOT.SLOT). -/
inductive SlotState where
  | empty
  | valid
  | bad
  | loading
deriving DecidableEq, Repr

/-- An image slot: its state, its header fields (R98) and the bytes written to it. -/
structure ImageSlot where
  st : SlotState := .empty
  version : Word := 0
  ifl : BitVec 8 := 0
  size : Nat := 0
  digest : List Byte := []
  tested : List (BitVec 8 × BitVec 8) := []
  data : List Byte := []
deriving DecidableEq, Repr

/-- Images and the choice of the pair (R98 to R105). `purser` is 0 PA, 1 PB, 2 dock loader; `pilotB` is LB. -/
structure Boot where
  slots : Vector ImageSlot 4 := Vector.replicate 4 {}
  openSlot : Option Slot := none
  purser : Nat := 2
  pilotB : Bool := false
  untested : Bool := false
  runAccepted : Bool := false
  dockReason : Nat := 0
  fails : Nat := 0
  accepted : Option (Slot × Slot × List Byte × List Byte) := none
  selfTest : Option Word := none
deriving DecidableEq, Repr

/-! ### Unit state and command sources -/

/-- The states of Table 8.2 that execute lines; ANCHORED is a phase. -/
inductive UnitState where
  | moored
  | ready
  | underway
  | stranded
  | safe
  | drydock
deriving DecidableEq, Repr

/-- State, latches and holds of the unit (chapter 8). `shut` bit c is the hold of channel c; `strUsed` is in 1/65536 mm,
`strUs` the microseconds of chain time since the entry to STRANDED and `strPos` the odometer at the last watch (R208). -/
structure UnitStatus where
  st : UnitState := .moored
  safe : BitVec 4 := 0
  kill : Bool := false
  shut : BitVec 40 := 0
  evt : BitVec 4 := 0
  strUsed : Nat := 0
  strUs : Nat := 0
  strPos : BitVec 40 := 0
  limitAction : Bool := false
deriving DecidableEq, Repr

/-- A line that waits in a source's queue (R181): its command, or the refusal its text already earned; with the microsecond
in which it completed (R212), the number of tides that had arrived before it completed (R144), whether it carried no checksum (R178), and the
sweep whose TURN the end unit owes after its reply (R153). -/
structure QLine where
  what : Instr ⊕ Err
  doneAt : Nat := 0
  tides : Nat
  bare : Bool := false
  turn : Option Sweep := none
deriving DecidableEq, Repr

/-- A muster slot (R194): the sample time, the named paths, and what its reply says once it has latched (R195). -/
structure MusterSlot where
  t : ChainTime
  paths : List RegAddr
  sample : Option ReplyBody
deriving DecidableEq, Repr

/-- A chain reply that waits for the reply to a MUSTER line before it (R181, R195), that reply itself still to come, or one
that only waits; each with the sweep whose TURN the end unit owes after it (R153). -/
inductive HeldReply where
  | muster (t : ChainTime) (turn : Option Sweep)
  | reply (body : ReplyBody) (reset : Bool) (turn : Option Sweep)
deriving DecidableEq, Repr

/-- The purser: queues, staging, musters, console and locks (chapter 7). -/
structure Manil where
  chainQ : List QLine := []
  conQ : List QLine := []
  staged : List (RegAddr × Word) := []
  tides : List PendingTide := []
  tideCount : Nat := 0
  musters : List MusterSlot := []
  held : List HeldReply := []
  conLock : Bool := false
  conLine : List Byte := []
  conBad : Bool := false
  conLastCr : Bool := false
  conTx : List Byte := []
  eCheck : Word := 0
  eSyntax : Word := 0
  eAddr : Word := 0
  eCon : Word := 0
  snapChain : List (RegAddr × Word) := []
  snapConsole : List (RegAddr × Word) := []
deriving DecidableEq, Repr

/-! ### Motion -/

/-- A ratio of integers, kept as it was formed: the estimates of R242 are exact quotients. -/
structure Frac where
  num : Int := 0
  den : Nat := 1
deriving DecidableEq, Repr

/-- A pulse input (R221 to R224). `level` is the accepted level of the pin, before INV; `measured` says a period has been measured; `fresh` that the next edge starts a
measurement; `edgeClk` when an edge was last accepted, in `clk`. -/
structure FinState where
  level : Bool := false
  count : Word := 0
  period : Word := 0xFFFFFF
  stopped : Bool := true
  measured : Bool := false
  fresh : Bool := true
  qdown : Bool := false
  edgeClk : Option Nat := none
deriving DecidableEq, Repr

/-- An encoder port (R225 to R229). `fall` is when the clock of its present read first fell and `due` when the next read falls due, in `clk`. -/
structure EncState where
  reading : Bool := false
  fall : Nat := 0
  stamp : ChainTime := 0
  due : Nat := 0
  word : Word := 0
  time : Word := 0
  valid : Bool := false
  decreasing : Bool := false
  fault : Bool := false
  err : Word := 0
  fails : Nat := 0
deriving DecidableEq, Repr

/-- A latched (odometer, chain time) pair (R240); the odometer in 1/65536 mm. -/
structure OdoPair where
  pos : BitVec 40
  t : ChainTime
deriving DecidableEq, Repr

/-- A SPEED line that executed (R244). -/
structure SpeedFrame where
  v : Int
  w : Int
  t : ChainTime
deriving DecidableEq, Repr

/-- The odometer and its estimates (R230 to R248). `pos` is ODO.POS over ODO.SUB; `rem` what the SPEED source has
not yet added, in 1/(10000) of 1/65536 mm; `turn` the turning point of R238; `switched` the code of the local source a
STRANDED unit took, 0 for none (R207); `speedTold` that SPEEDSTALE has been told since the last SPEED line or the beginning of the source's use
(R243); `lastPair` and `speedSince` in `clk`; `speedRestart` that no SPEED line has executed
since the return from it (R248); `presetDue` a preset that waits for PD101 to come on (R57, R235). -/
structure Motion where
  fins : Vector FinState 8 := Vector.replicate 8 {}
  finEvt : BitVec 12 := 0
  encs : Vector EncState 4 := Vector.replicate 4 {}
  encEvt : BitVec 20 := 0
  pos : BitVec 40 := 0
  rem : Int := 0
  turn : BitVec 40 := 0
  dirRev : Bool := false
  pairs : List OdoPair := []
  lastPair : Nat := 0
  vel : Frac := {}
  acc : Frac := {}
  yaw : Frac := {}
  moving : Bool := false
  speedStale : Bool := false
  speed : Option SpeedFrame := none
  speedPrev : Option SpeedFrame := none
  speedRestart : Bool := false
  speedSince : Nat := 0
  speedTold : Bool := false
  evt : BitVec 7 := 0
  switched : Option Nat := none
  presetDue : Option Word := none
deriving DecidableEq, Repr

/-! ### Crossings -/

/-- A crossing of the store (Table 10.2). -/
structure Crossing where
  target : Word
  ident : Word
  action : CrossAction
  duty : Nat
  dir : Nat
  late : Bool
  noLearn : Bool
  notify : Bool
  noTc : Bool
  stale : Bool
deriving DecidableEq, Repr

/-- A channel's scheduled level (R263). -/
inductive Level where
  | closed
  | open_
  | duty (d : Nat)
deriving DecidableEq, Repr

/-- The stage of a current crossing (R263, R266). -/
inductive Stage where
  | decided
  | cast
  | landed
deriving DecidableEq, Repr

/-- A current crossing: its action start ts, the level before the cast, the landing time where it is counted from ts
(R266), whether it is the reverse of a recalled one (R273, R274), whether the level before was one taken while the channel was held (R218, R276) and one
that teaches nothing (R269), and whether its opening has passed without a dip, so that it never lands
(R267, R287). -/
structure Current where
  x : Crossing
  stage : Stage
  ts : ChainTime
  before : Level
  landAt : Option ChainTime
  reverse : Bool := false
  beforeHeld : Bool := false
  beforeMute : Bool := false
  missed : Bool := false
deriving DecidableEq, Repr

/-- The crossing engine's part of a channel. `cur` is the current crossing from its ts on, `decided` those decided whose ts
is still to come, oldest first (R263). `sched` says a cast has set the scheduled level since it was last set to
closed by a latch, SAFE or a handover (R275); `muteLevel` that its openings teach nothing, since its crossing has NOLEARN or was held (R218, R269); `l8` is the learned latency in 1/8 µs (R270); `castNext` marks a cast
without a lead due in the next watch (R219, R275). -/
structure XChan where
  manifest : List Crossing := []
  cur : Option Current := none
  decided : List Current := []
  level : Level := .closed
  sched : Bool := false
  heldLevel : Bool := false
  muteLevel : Bool := false
  castNext : Bool := false
  l8 : Nat := 160000
  latm : BitVec 18 := 0
deriving DecidableEq, Repr

/-- The crossing engine (chapter 10). -/
structure Engine where
  chans : Vector XChan 40 := Vector.replicate 40 {}
  vselChain : Word := 0
  vselConsole : Word := 0
  evt : BitVec 6 := 0
  eMiss : Word := 0
  eLate : Word := 0
  eRcast : Word := 0
  lastWatch : Option ChainTime := none
deriving DecidableEq, Repr

/-! ### Solenoid banks -/

/-- The phases of CHcc.STAT [2:0]. -/
inductive SolPhase where
  | idle
  | queued
  | boost
  | peak
  | hold
  | off
  | offwait
  | bnrwait
deriving DecidableEq, Repr

/-- How coil current decays (Table 11.2). -/
inductive Decay where
  | slow
  | fast
deriving DecidableEq, Repr

/-- A pulse demand: frequency in Hz, duty and phase in % (R294, R296). -/
structure PulseSpec where
  f : Nat
  d : Nat
  p : Nat
deriving DecidableEq, Repr

/-- The level 7 demand of a solenoid channel (Table 8.7). -/
inductive SolManual where
  | none
  | on
  | pulse (p : PulseSpec)
deriving DecidableEq, Repr

/-- A solenoid channel (chapter 11). `want` says an on demand is in effect; `onUntil` is the end of the present pulse
on-interval and `full` marks one without an end (a duty of 100 %, R295); `grid` is the period and offset of the last
period start, `lastStart` that start; `applied` is the turn-compensated duty of the last watch (R278); `post` is PKPOST as latched at the
start of PEAK, none without PKEXIT (R281, R283); `teach` says the opening may teach so far (R269); `offAt` is the last
OFF start, `decaying` that its current still flows. `chopClk` is when its present chopping period began, `chopDecay` the decay of that period
(R282, R283), `reqClk` when it last requested boost (R284), `idleClk` since when it is IDLE (R303), all in `clk`; `coil` is the coil's current in
mA as a command last told it, `samples` what the bank's ADC made of it, with the `clk` of each, within the last chopping period, and `imeas` the
filtered current of the channel itself (R289). `maxSeen` is the dip detector's running maximum, `minSeen` its running minimum once the current has
fallen, and `dipFound` that it has risen again (R290). -/
structure SolChan where
  phase : SolPhase := .idle
  manual : SolManual := .none
  want : Bool := false
  pulsing : Bool := false
  onUntil : Option ChainTime := none
  full : Bool := false
  grid : Option (Nat × Nat) := none
  lastStart : Option ChainTime := none
  applied : Option Frac := none
  post : Option Nat := none
  boostAt : ChainTime := 0
  phaseEnd : ChainTime := 0
  dip : Option ChainTime := none
  fromVbat : Bool := false
  teach : Bool := false
  offAt : Option ChainTime := none
  decaying : Bool := false
  decay : Decay := .fast
  lowSide : Bool := false
  chopClk : Option Nat := none
  chopDecay : Decay := .slow
  reqClk : Nat := 0
  idleClk : Nat := 0
  coil : Nat := 0
  samples : List (Nat × Nat) := []
  imeas : BitVec 13 := 0
  maxSeen : Nat := 0
  minSeen : Option Nat := none
  dipFound : Bool := false
  diag : BitVec 8 := 0
  fault : BitVec 4 := 0
  nlrun : Nat := 0
  act : ChainTime := 0
deriving DecidableEq, Repr

/-- What the high side of a bank connects to (R279). -/
inductive HsPath where
  | off
  | vbat
  | vbst
deriving DecidableEq, Repr

/-- A bank: its arbiter and its faults (R284 to R287, R303, R304); `vbatClk` since when its high side is on VBAT, in `clk` (R303). -/
structure Bank where
  queue : List (Fin 32) := []
  holder : Option (Fin 32) := none
  waitUntil : Option ChainTime := none
  vbst : Bool := false
  fault : BitVec 5 := 0
  otwNow : Bool := false
  temp : Int := 0
  evt : BitVec 4 := 0
  readyLast : Bool := false
  vbatClk : Option Nat := none
deriving DecidableEq, Repr

/-- The boost converter (R286, R288); `judged` says that its start has been judged, 100 ms after it, `limited` that BSNS has ended the on-time of
the present period of BGATE, and `gate` that an on-time lasts. -/
structure Boost where
  run : Bool := false
  rdy : Bool := false
  ov : Bool := false
  startAt : Nat := 0
  judged : Bool := false
  vmeas : Nat := 0
  limited : Bool := false
  gate : Bool := false
  evt : BitVec 3 := 0
deriving DecidableEq, Repr

/-- The solenoid stage. -/
structure Solenoids where
  chans : Vector SolChan 32 := Vector.replicate 32 {}
  banks : Vector Bank 8 := Vector.replicate 8 {}
  boost : Boost := {}
deriving DecidableEq, Repr

/-! ### PWM slices and valves -/

/-- A PWM slice (R308 to R319). `shadow` is the duty that has reached the shadow of a free slice, `duty` the one
loaded at the last period start; `startTick` and `endTick` bound the present period and `syncs` are the starts that sync
pulses have set, in ticks of 1/240 µs of the model's clock `clk`; `edge` is where the edge inside the period lies, in
1/512 tick, and `tap` the tap it uses (R312, R314); `count` is the period count of R314; `forced` says a fault input
holds the outputs until the next period start (R321, R322). -/
structure Slice where
  shadow : Word := 0
  duty : Word := 0
  per : Nat := 0
  ton : Nat := 0
  running : Bool := false
  clamped : Bool := false
  fine : Bool := false
  count : Nat := 0
  startTick : Nat := 0
  endTick : Nat := 0
  syncs : List Nat := []
  edge : Nat := 0
  tap : Nat := 0
  forced : Bool := false
deriving DecidableEq, Repr

/-- Why a valve run was started. -/
inductive RunWhy where
  | handover
  | limit
  | shut
  | manual
  | driveVerb
  | crossing
  | position
deriving DecidableEq, Repr

/-- A run in progress (R324): its target end, why it was started, its start in `clk`, and the chain time at which its
timed end is reached. -/
structure Run where
  target : ValveEnd
  why : RunWhy
  startClk : Nat
  timedEnd : Option ChainTime
deriving DecidableEq, Repr

/-- The demand in force on a predriver, the highest of Tables 8.7 and 12.6. -/
inductive ValveDemand where
  | locked
  | run (e : ValveEnd) (why : RunWhy)
  | safe
  | fault
  | coast
  | free
  | drive (duty : Int)
  | position
  | idle
deriving DecidableEq, Repr

/-- What the bridge of a valve does (MVv.STAT [2:0]). -/
inductive BridgeState where
  | coast
  | running
  | brake
  | freeSlice
  | safeLevel
deriving DecidableEq, Repr

/-- The level 7 demand of a valve (R329). -/
inductive ValveManual where
  | none
  | toEnd (e : ValveEnd)
  | drive (duty : Int)
deriving DecidableEq, Repr

/-- The gates of one predriver (Table 2.6). -/
structure Gates where
  ha : Bool := false
  la : Bool := false
  hb : Bool := false
  lb : Bool := false
deriving DecidableEq, Repr

/-- A motorised valve and its predriver (chapter 12). `posFrac` is the internal fraction of R330 in 1/(100·CHcc.LAT) of
the unit of MVv.POS; `trans` the accepted transitions since
the last run started (R327); `demand` the one last applied; `lowAtA` and `lowAtB` when
each low side was last on for 400 ns and `chargeEnd` when the charge before the first on-phase ends (R318), in `clk`; `bootLowA` and `bootLowB` that a bootstrap is under its
threshold (R406). `before` are the gates as the bridge was last turned to another state, at the tick `since`; `offA` and `offB` the ticks at
which each high side was last commanded off, `highEnd` that the high side stayed on into the present period, and `pulseA` and `pulseB` the
ticks at which a refresh began, and `firstEnd` the tick at which the first on-phase after a charge ends (R317, R318, R321). `limClkO` and `limClkC` say when a limit input last changed, in `clk` (R326),
and `ranFor` how long the last run that reached its end had travelled, in µs (R273). -/
structure Valve where
  bridge : BridgeState := .coast
  run : Option Run := none
  brakeUntil : Option Nat := none
  manual : ValveManual := .none
  pos : Nat := 0
  posFrac : Int := 0
  posValid : Bool := false
  atOpen : Bool := false
  atClosed : Bool := false
  limO : Bool := false
  limC : Bool := false
  trans : Nat := 0
  fault : BitVec 4 := 0
  evt : BitVec 4 := 0
  act : ChainTime := 0
  ptgt : Nat := 0
  demand : ValveDemand := .locked
  lowAtA : Nat := 0
  lowAtB : Nat := 0
  chargeEnd : Nat := 0
  bootLowA : Bool := false
  bootLowB : Bool := false
  before : Gates := {}
  since : Nat := 0
  offA : Nat := 0
  offB : Nat := 0
  highEnd : Bool := false
  pulseA : Option Nat := none
  pulseB : Option Nat := none
  firstEnd : Option Nat := none
  limClkO : Option Nat := none
  limClkC : Option Nat := none
  ranFor : Nat := 0
deriving DecidableEq, Repr

/-- Slices, valves, group faults and the calibrator (chapter 12). `posDue` is when the position estimates next move, in
`clk`. -/
structure Pwm where
  slices : Vector Slice 12 := Vector.replicate 12 {}
  valves : Vector Valve 8 := Vector.replicate 8 {}
  dis : BitVec 12 := 0
  fltLatch : BitVec 3 := 0
  fltPin : BitVec 3 := 0
  fltEvt : BitVec 3 := 0
  taps : Nat := 0
  calOk : Bool := false
  evt : BitVec 13 := 0
  posDue : Nat := 0
deriving DecidableEq, Repr

/-! ### Pilot, analogue inputs and trace -/

/-- The state of a loop (Table 13.4). -/
inductive LoopState where
  | off
  | run
  | hold
  | manual
deriving DecidableEq, Repr

/-- An output a loop still owes: when, in `clk`, the u of its sample, and LOOPl.CFG.OUT as latched there (R335, R337). -/
structure LoopOutput where
  due : Nat
  u : Int
  out : Nat
deriving DecidableEq, Repr

/-- A rate loop. Q4.20 values are integers in units of 2^-20; `pvf` is PVf in 1/256 (R341). `started` says a sample has
been taken since the loop left OFF, `man` is MAN at the last sample, `fromManual` that no RUN sample has followed a MANUAL
one, `lastAt` the last sample's time, `changes` how often its state has changed (R357). -/
structure Loop where
  st : LoopState := .off
  causes : BitVec 5 := 0
  i : Int := 0
  u : Int := 0
  pvf : Int := 0
  p : Int := 0
  d : Int := 0
  ff : Int := 0
  spe : Int := 0
  started : Bool := false
  man : Bool := false
  fromManual : Bool := false
  atMax : Bool := false
  atMin : Bool := false
  awu : Bool := false
  scnt : Word := 0
  writes : List LoopOutput := []
  misses : Nat := 0
  lastAt : Option ChainTime := none
  changes : Nat := 0
deriving DecidableEq, Repr

/-- The state of a trace bank (R356). -/
inductive TraceState where
  | idle
  | fill
  | wait
  | post
  | done
  | stopped
deriving DecidableEq, Repr

/-- A trace bank: the settings latched at ARM, its entries oldest first, and its trigger (R355 to R357). `prev` is the entry
before and `prevLoop` how often the loop TSRC had changed its state then; `owed` says a write phase of that loop waits to be captured;
`armedAt` is the time of the ARM and `lastAt` that of the last capture. -/
structure Trace where
  st : TraceState := .idle
  cfg : Word := 0
  interval : Nat := 0
  level : Word := 0
  pre : Nat := 0
  entries : List Word := []
  prev : Option Word := none
  forced : Bool := false
  leaderHit : Bool := false
  tidx : Nat := 0
  triggered : Bool := false
  trigTime : ChainTime := 0
  left : Nat := 0
  prevLoop : Option Nat := none
  owed : Bool := false
  armedAt : ChainTime := 0
  lastAt : Option ChainTime := none
deriving DecidableEq, Repr

/-- The pilot, the trace banks and the AIN converter (chapter 13). -/
structure Pilot where
  loops : Vector Loop 8 := Vector.replicate 8 {}
  evt : BitVec 8 := 0
  traces : Vector Trace 4 := Vector.replicate 4 {}
  ain : Vector (Option (BitVec 14)) 12 := Vector.replicate 12 none
  ainNext : Nat := 0
deriving DecidableEq, Repr

/-! ### Safety pairs -/

/-- A safety pair (chapter 14). Levels are the filtered ones; `onset` the start of the running disagreement with the
Td in force then and the channel that read stop; `checked` that its deciding check has been made; `runSince` since when
both read run; `clkA` and `clkB` when a filtered level last changed, in `clk` (R360). -/
structure Pair where
  levelA : Bool := false
  levelB : Bool := false
  active : Bool := false
  latch : Bool := false
  discrep : Bool := false
  onset : Option Nat := none
  onsetTd : Nat := 0
  onsetA : Bool := false
  checked : Bool := false
  runSince : Option Nat := none
  run10 : Bool := false
  first : BitVec 2 := 0
  trips : Word := 0
  clkA : Option Nat := none
  clkB : Option Nat := none
deriving DecidableEq, Repr

/-- The four pairs and their events. -/
structure Safety where
  pairs : Vector Pair 4 := Vector.replicate 4 {}
  evt : BitVec 12 := 0
deriving DecidableEq, Repr

/-! ### Recorder, authorisation, calendar -/

/-- A record (Table 15.2). -/
structure Record where
  seq : Word
  optime : Word
  pcycle : Word
  code : BitVec 10
  source : BitVec 6
  rep : BitVec 16
  data : Word
deriving DecidableEq, Repr

/-- What one code has had in the present rate window (R380). -/
structure RateCount where
  code : BitVec 10
  written : Nat
  suppressed : Nat
deriving DecidableEq, Repr

/-- The event recorder (R374 to R384). `nvm` holds the committed records oldest first, `queue` those not yet
committed; `next` is the sequence number the next record takes; `nvmNext` the cursor as NVM holds it; `last` the
record that may take a repeat, with the value of its CONT record; `lost` the drops not yet recorded;
`window` the start of the rate window, in µs of CD08 time; `optUs` the microseconds of CD08 time counted towards the next step of the operating
time, and `optFrac` what is left of one, in 1/10^8 µs. -/
structure Recorder where
  nvm : List Record := []
  queue : List Record := []
  next : Word := 0
  nvmNext : Word := 0
  last : Option (Word × Option Word) := none
  repeatDue : Bool := false
  lost : Nat := 0
  eLost : Word := 0
  rates : List RateCount := []
  window : Option Nat := none
  optime : Word := 0
  optUs : Nat := 0
  optFrac : Nat := 0
  pcycle : Word := 0
  optSat : Bool := false
  pcSat : Bool := false
  evt : BitVec 6 := 0
  eAuth : Word := 0
deriving DecidableEq, Repr

/-- The authorisation state of one source (R386 to R389). -/
structure AuthState where
  nonce : Option (ChainTime × Nat) := none
  grant : Option Nat := none
  fails : Nat := 0
  lockout : Option Nat := none
deriving DecidableEq, Repr

/-- Owner key and authorisations. `nonces` is the model's own count of nonces drawn. -/
structure Owner where
  key : Option (Vector Word 6) := none
  partialKey : Vector (Option Word) 6 := Vector.replicate 6 none
  chain : AuthState := {}
  console : AuthState := {}
  nonces : Nat := 0
deriving DecidableEq, Repr

/-- The calendar (R391 to R396). `sub` counts microseconds of the present second in CD08 time, `subFrac` what is left of one, in 1/10^8 µs. -/
structure Calendar where
  secs : BitVec 17 := 0
  days : BitVec 18 := 0
  sub : Nat := 0
  subFrac : Nat := 0
  set : Bool := false
  ended : Bool := false
  drift : Bool := false
deriving DecidableEq, Repr

/-- What NVM keeps beside the records: the SAVEd configuration and the actuation counts (R190, R306, R324). -/
structure Nvm where
  saved : List (RegAddr × Word) := []
  solAct : Vector ChainTime 32 := Vector.replicate 32 0
  mvAct : Vector ChainTime 8 := Vector.replicate 8 0
  actSaved : Nat := 0
deriving DecidableEq, Repr

/-! ### The whole unit -/

/-- The state of the unit. `regs` lists the ST, LV and plain RW registers whose value in force is not the one after
reset, by rising address; `time` is chain time; `clk` is the model's own count of microseconds since the machine
began, which timers that are not kept in chain time count in; `cd08` how far CD08 has gone since then, in 1/10^8 µs (R111); `spread` are the
modulators of CD10 to CD17 and of CD54 (R115); `settle` is the model's own count of the rounds of due
commands in the present microsecond; `pending` holds the commands that wait. -/
structure State where
  phase : Phase := .running
  regs : List (Nat × Word) := []
  time : ChainTime := 0
  clk : Nat := 0
  cd08 : Nat := 0
  chain : Chain := {}
  clocks : Clocks := {}
  spread : Vector Modulator 9 := Vector.replicate 9 {}
  ckout : Ckout := {}
  power : Power := {}
  rst : ResetCtl := {}
  boot : Boot := {}
  unit : UnitStatus := {}
  manil : Manil := {}
  motion : Motion := {}
  engine : Engine := {}
  sol : Solenoids := {}
  pwm : Pwm := {}
  pilot : Pilot := {}
  safety : Safety := {}
  recorder : Recorder := {}
  owner : Owner := {}
  cal : Calendar := {}
  nvm : Nvm := {}
  settle : Nat := 0
  pending : List Instr := []
deriving DecidableEq, Repr

/-- The unit right after the release of a POWER ON reset (R80, R87, R91, R94): the reset's cause and level are
recorded, nothing is switched on, chain time is 0 and UNSET, the gangway forwards, and power-up is the next thing to happen. -/
def State.reset : State :=
  { phase := .powerUp
    chain := { gangway := true }
    rst := { cause := 1, level := 4, lastCause := 0x41 } }

end Sys2Proof.Machine
end

