-- ==== Sys2Proof/Machine/Registers.lean ====
section
/-! DEFINITION. The path and register index (chapter 17) with the ranges, steps and fields of the register tables,
and the register file that holds every ST, LV and plain RW register by address. -/
namespace Sys2Proof.Machine

open Sys2Proof

/-- The access codes of Table 0.3. -/
inductive Access where
  | rw
  | ro
  | w1c
  | wo
  | st
  | lv
deriving DecidableEq, Repr

/-- A field of a register: its lowest bit, its width, and the values it may take. -/
structure FieldSpec where
  lo : Nat
  width : Nat
  min : Nat := 0
  max : Nat := 0
  step : Nat := 1
deriving DecidableEq, Repr

/-- What a register holds (R416): one quantity with its unit, range and step; one bit mask; or several fields. -/
inductive Holds where
  | quantity (unit : String) (min max : Int) (step : Nat)
  | fields (fs : List FieldSpec)
deriving DecidableEq, Repr

/-- An entry of the index: name, width, access code, value after reset (none where the tables give a word), and
what the register holds. -/
structure PathInfo where
  name : String
  width : Nat
  access : Access
  reset : Option Nat
  holds : Holds
deriving DecidableEq, Repr

namespace PathInfo

/-- A path with no range of its own: every value of its width. -/
def plain (name : String) (width : Nat) (access : Access) (reset : Option Nat) (unit : String := "-") : PathInfo :=
  { name, width, access, reset, holds := .quantity unit 0 (2 ^ width - 1) 1 }

/-- A signed 24-bit path with no range of its own. -/
def signed (name : String) (access : Access) (unit : String := "-") : PathInfo :=
  { name, width := 24, access, reset := some 0, holds := .quantity unit (-8388608) 8388607 1 }

/-- A path holding one quantity in a range. -/
def ranged (name : String) (width : Nat) (access : Access) (reset : Nat) (unit : String) (min max : Int)
    (step : Nat := 1) : PathInfo :=
  { name, width, access, reset := some reset, holds := .quantity unit min max step }

/-- A path of separate bits or several fields. -/
def split (name : String) (width : Nat) (access : Access) (reset : Option Nat) (fs : List FieldSpec) : PathInfo :=
  { name, width, access, reset, holds := .fields fs }

/-- The field at `lo` of `width` bits with every value. -/
def full (lo width : Nat) : FieldSpec := { lo, width, max := 2 ^ width - 1 }

end PathInfo

open PathInfo

/-- Two decimal digits (R413). -/
def twoDigits (n : Nat) : String := (if n < 10 then "0" else "") ++ toString n

/-- Block 0x03 (Table 3.3). -/
def pwrPath (i : Nat) : Option PathInfo :=
  if i < 4 then some (plain ("PWR.EN" ++ toString i) 24 .st (some 0))
  else match i with
  | 4 => some (plain "PWR.EN4" 18 .st (some 0x67C0))
  | 8 => some (plain "PWR.ON0" 24 .ro none)
  | 9 => some (plain "PWR.ON1" 24 .ro none)
  | 10 => some (plain "PWR.ON2" 24 .ro none)
  | 11 => some (plain "PWR.ON3" 24 .ro none)
  | 12 => some (plain "PWR.ON4" 18 .ro none)
  | 0x10 => some (split "PWR.WAKE" 3 .st (some 7) [full 0 3])
  | 0x11 => some (ranged "PWR.ANCHOR_DLY" 14 .st 20 "ms" 1 10000)
  | 0x12 => some (ranged "PWR.VBAT_LOW" 8 .st 90 "0.1V" 60 200)
  | 0x13 => some (split "PWR.HO_ACT" 16 .st (some 0xAAAA)
      ((List.range 8).map fun v => { lo := 2 * v, width := 2, max := 2 }))
  | 0x14 => some (ranged "PWR.HO_TIME" 14 .st 3000 "ms" 100 10000 10)
  | 0x15 => some (ranged "PWR.HLD_V" 9 .st 120 "0.1V" 60 340)
  | 0x16 => some (ranged "PWR.HLD_I" 10 .st 200 "mA" 50 500 50)
  | 0x17 => some (split "PWR.HLD_CFG" 2 .st (some 1) [full 0 2])
  | 0x18 => some (split "PWR.STAT" 6 .ro (some 0) [full 0 6])
  | 0x19 => some (split "PWR.EVT" 5 .w1c (some 0) [full 0 5])
  | _ => none

/-- The names of the four image slots in register order. -/
def slotName : Nat → String
  | 0 => "PA"
  | 1 => "PB"
  | 2 => "LA"
  | _ => "LB"

/-- The minimum Reach of each entry of the reach table, less 1 (Table 4.4). -/
def reachMinimums : List Nat := [3, 3, 1, 0, 1, 1, 0, 0, 2, 0, 0]

/-- Block 0x04 (Table 4.10). -/
def rstPath (i : Nat) : Option PathInfo :=
  if 0x12 ≤ i ∧ i ≤ 0x15 then some (split ("BOOT.VER_" ++ slotName (i - 0x12)) 24 .ro none [full 0 8, full 8 8, full 16 8])
  else if 0x16 ≤ i ∧ i ≤ 0x19 then some (plain ("BOOT.IFL_" ++ slotName (i - 0x16)) 8 .ro none)
  else match i with
  | 0 => some (split "RST.CAUSE" 7 .ro none [full 0 7])
  | 1 => some (split "RST.REACH" 22 .ro none [full 0 22])
  | 2 => some (split "RST.REACH_NEW" 22 .st (some 0x06165F)
      ((List.range 11).map fun k => { lo := 2 * k, width := 2, min := reachMinimums.getD k 0, max := 3 }))
  | 3 => some (plain "RST.OTP" 1 .ro none)
  | 4 => some (plain "RST.STRAP" 4 .ro none)
  | 5 => some (ranged "RST.WDT" 11 .st 500 "ms" 10 2000 10)
  | 6 => some (plain "RST.STEP" 8 .ro none)
  | 0x10 => some (split "BOOT.STAT" 7 .ro none [full 0 7])
  | 0x11 => some (split "BOOT.SLOT" 8 .ro none [full 0 8])
  | 0x1A => some (plain "BOOT.FAILS" 2 .ro none)
  | _ => none

/-- The fields of a spread-spectrum register (Table 5.9). -/
def sscFields : List FieldSpec :=
  [{ lo := 0, width := 6, max := 40 }, { lo := 6, width := 6, min := 1, max := 50 }, full 12 1]

/-- Block 0x05 (Table 5.9). -/
def clkPath (i : Nat) : Option PathInfo :=
  if 0x10 ≤ i ∧ i ≤ 0x17 then some (split ("CLK.SSC" ++ toString (i - 0x10)) 13 .st (some 0x40) sscFields)
  else match i with
  | 0 => some (plain "TLO" 24 .ro (some 0) "us")
  | 1 => some (plain "THI" 24 .ro (some 0))
  | 2 => some (split "CLK.STAT" 16 .ro none [full 0 16])
  | 3 => some (split "CLK.EVT" 9 .w1c (some 0) [full 0 9])
  | 4 => some (split "CLK.HOP_B" 24 .ro (some 0) [full 0 24])
  | 5 => some (split "CLK.HOP_S" 24 .ro (some 0) [full 0 24])
  | 6 => some (ranged "CLK.TERR" 24 .ro 0 "ns" (-8388607) 8388607)
  | 7 => some (signed "CLK.FOFS" .ro "0.01ppm")
  | 8 => some (split "CLK.CKOUT" 19 .st (some 0) [{ lo := 0, width := 6, max := 58 }, full 6 12, full 18 1])
  | 0x18 => some (split "CLK.SSCB" 13 .st (some 0x40) sscFields)
  | _ => none

/-- The names of the six error counters of a port. -/
def portCounter : Nat → String
  | 0 => "CHAR"
  | 1 => "CRC"
  | 2 => "ALIGN"
  | 3 => "FRAME"
  | 4 => "CKLOSS"
  | _ => "LINK"

/-- Block 0x06 (Table 6.9). -/
def chnPath (i : Nat) : Option PathInfo :=
  if 0x10 ≤ i ∧ i ≤ 0x15 then some (plain ("CHN.E_" ++ portCounter (i - 0x10) ++ "_B") 24 .ro (some 0))
  else if 0x16 ≤ i ∧ i ≤ 0x1B then some (plain ("CHN.E_" ++ portCounter (i - 0x16) ++ "_S") 24 .ro (some 0))
  else match i with
  | 0 => some (ranged "CHN.ADDR" 8 .ro 0 "-" 0 128)
  | 1 => some (ranged "CHN.PIN" 8 .st 0 "-" 0 128)
  | 2 => some (plain "CHN.SER_LO" 24 .ro none)
  | 3 => some (plain "CHN.SER_HI" 24 .ro none)
  | 4 => some (split "CHN.STAT" 11 .ro none [full 0 11])
  | 5 => some (split "CHN.DOWNHOP" 24 .ro (some 0) [full 0 16, full 23 1])
  | 6 => some (ranged "CHN.OUTSTAND" 5 .ro 0 "-" 0 16)
  | 7 => some (split "CHN.EVT" 12 .w1c (some 0) [full 0 12])
  | 8 => some (ranged "CHN.NQ" 5 .ro 0 "-" 0 16)
  | 0x1C => some (plain "CHN.E_NLOST" 24 .ro (some 0))
  | 0x1F => some (plain "CHN.ECLR" 13 .wo (some 0))
  | _ => none

/-- Block 0x07 (Table 7.9). -/
def mnlPath : Nat → Option PathInfo
  | 0 => some (split "MNL.CFG" 4 .st (some 8) [full 0 4])
  | 1 => some (plain "CON.BAUD" 3 .st none)
  | 2 => some (split "MNL.STAT" 9 .ro (some 0) [full 0 9])
  | 3 => some (ranged "MNL.STAGED" 9 .ro 0 "-" 0 256)
  | 0x10 => some (plain "MNL.E_CHECK" 24 .ro (some 0))
  | 0x11 => some (plain "MNL.E_SYNTAX" 24 .ro (some 0))
  | 0x12 => some (plain "MNL.E_ADDR" 24 .ro (some 0))
  | 0x13 => some (plain "MNL.E_CON" 24 .ro (some 0))
  | 0x1F => some (plain "MNL.ECLR" 4 .wo (some 0))
  | _ => none

/-- Block 0x08 (Table 8.8). -/
def staPath : Nat → Option PathInfo
  | 0 => some (split "STA.STATE" 8 .ro none [full 0 8])
  | 1 => some (split "STA.SAFE" 4 .ro (some 0) [full 0 4])
  | 2 => some (ranged "STA.STR_DIST" 20 .st 50000 "mm" 1000 1000000 1000)
  | 3 => some (ranged "STA.STR_TIME" 16 .st 5000 "ms" 100 60000 100)
  | 4 => some (ranged "STA.STR_SRC" 4 .st 0 "-" 0 12)
  | 5 => some (plain "STA.SHUT0" 24 .ro (some 0))
  | 6 => some (plain "STA.SHUT1" 16 .ro (some 0))
  | 7 => some (split "STA.EVT" 4 .w1c (some 0) [full 0 4])
  | 8 => some (plain "STA.STR_USED" 24 .ro (some 0) "mm")
  | 9 => some (plain "STA.STR_TUSE" 24 .ro (some 0) "ms")
  | _ => none

/-- Block 0x09 (Table 9.3). QUAD and QREV are for even inputs only. -/
def finPath (i : Nat) : Option PathInfo :=
  if i < 32 then
    let n := i / 4
    let nm := "FIN" ++ toString n
    match i % 4 with
    | 0 => some (split (nm ++ ".CFG") 17 .st (some 0x410)
        ([{ lo := 0, width := 8, min := 1, max := 255 }, full 8 4, { lo := 12, width := 2, max := 2 }, full 14 1]
          ++ if n % 2 = 0 then [full 15 2] else [{ lo := 15, width := 2, max := 0 }]))
    | 1 => some (plain (nm ++ ".COUNT") 24 .ro (some 0))
    | 2 => some (plain (nm ++ ".PERIOD") 24 .ro (some 0xFFFFFF))
    | _ => some (split (nm ++ ".STAT") 3 .ro none [full 0 3])
  else match i with
  | 0x20 => some (split "FIN.EVT" 12 .w1c (some 0) [full 0 12])
  | 0x21 => some (split "FIN.ATTN" 12 .st (some 0) [full 0 12])
  | _ => none

/-- Block 0x0A (Table 9.4). -/
def encPath (i : Nat) : Option PathInfo :=
  if i < 32 then
    let nm := "ENC" ++ toString (i / 8)
    match i % 8 with
    | 0 => some (split (nm ++ ".CFG") 23 .st (some 0x0101AD)
        [{ lo := 0, width := 5, min := 10, max := 24 }, full 5 1, { lo := 6, width := 4, max := 8 }, full 10 5,
          full 15 4, full 19 2, full 21 1, full 22 1])
    | 1 => some (ranged (nm ++ ".PER") 14 .st 100 "10us" 10 10000)
    | 2 => some (plain (nm ++ ".WORD") 24 .ro (some 0))
    | 3 => some (plain (nm ++ ".TIME") 24 .ro (some 0) "us")
    | 4 => some (plain (nm ++ ".ZERO") 24 .st (some 0))
    | 5 => some (plain (nm ++ ".JUMP") 24 .st (some 0))
    | 6 => some (split (nm ++ ".STAT") 3 .ro (some 0) [full 0 3])
    | _ => some (plain (nm ++ ".ERR") 24 .ro (some 0))
  else match i with
  | 0x20 => some (split "ENC.EVT" 20 .w1c (some 0) [full 0 20])
  | 0x21 => some (split "ENC.ATTN" 20 .st (some 0) [full 0 20])
  | 0x22 => some (plain "ENC.ECLR" 4 .wo (some 0))
  | _ => none

/-- Block 0x0B (Table 9.5). -/
def odoPath : Nat → Option PathInfo
  | 0 => some (plain "ODO.POS" 24 .ro (some 0) "mm")
  | 1 => some (plain "ODO.SUB" 16 .ro (some 0) "1/65536mm")
  | 2 => some (split "ODO.CFG" 22 .st (some 0x014000)
      [{ lo := 0, width := 4, max := 13 }, { lo := 4, width := 2, max := 3 }, full 7 3, full 10 1,
        { lo := 11, width := 3, max := 5 }, full 14 8])
  | 3 => some (ranged "ODO.DPP" 24 .st 0x010000 "-" 1 16777215)
  | 4 => some (ranged "ODO.VWIN" 9 .st 50 "ms" 1 500)
  | 5 => some (ranged "ODO.AMAX" 15 .st 3000 "mm/s2" 100 20000 100)
  | 6 => some (ranged "ODO.STOPT" 13 .st 1000 "ms" 50 5000 10)
  | 7 => some (ranged "ODO.SPDTMO" 11 .st 200 "ms" 20 2000 10)
  | 8 => some (ranged "ODO.HITCH" 15 .st 5000 "mm" 500 20000)
  | 9 => some (signed "ODO.VEL" .ro "mm/s")
  | 10 => some (signed "ODO.ACC" .ro "mm/s2")
  | 11 => some (signed "ODO.YAW" .ro "mrad/s")
  | 12 => some (plain "ODO.LAT_ODO" 24 .ro (some 0) "mm")
  | 13 => some (plain "ODO.LAT_T" 24 .ro (some 0) "us")
  | 14 => some (split "ODO.STAT" 4 .ro (some 0) [full 0 4])
  | 15 => some (split "ODO.EVT" 7 .w1c (some 0) [full 0 7])
  | 16 => some (split "ODO.ATTN" 7 .st (some 4) [full 0 7])
  | 17 => some (plain "ODO.PRESET" 24 .st (some 0) "mm")
  | 18 => some (signed "ODO.SPEED_V" .ro "mm/s")
  | 19 => some (signed "ODO.SPEED_W" .ro "mrad/s")
  | _ => none

/-- Block 0x0C (Table 10.9). -/
def xngPath : Nat → Option PathInfo
  | 0 => some (plain "XNG.CFG" 1 .st (some 0))
  | 1 => some (ranged "XNG.LATETOL" 17 .st 1000 "us" 0 100000)
  | 2 => some (ranged "XNG.TCVMIN" 11 .st 100 "mm/s" 10 2000)
  | 3 => some (ranged "XNG.OPEN_C" 6 .ro 0 "-" 0 40)
  | 4 => some (ranged "XNG.OPEN_L" 6 .ro 0 "-" 0 40)
  | 5 => some (ranged "XNG.USED" 11 .ro 0 "-" 0 1536)
  | 6 => some (ranged "XNG.SPARE" 11 .ro 16 "-" 0 1536)
  | 7 => some (split "XNG.VSEL" 17 .rw (some 0)
      [{ lo := 0, width := 6, max := 39 }, { lo := 6, width := 11, max := 1535 }])
  | 8 => some (plain "XNG.VPOS" 24 .ro (some 0) "mm")
  | 9 => some (plain "XNG.VID" 24 .ro (some 0))
  | 10 => some (split "XNG.VACT" 17 .ro (some 0) [full 0 17])
  | 11 => some (split "XNG.EVT" 6 .w1c (some 0) [full 0 6])
  | 12 => some (split "XNG.ATTN" 6 .st (some 0) [full 0 6])
  | 0x10 => some (plain "XNG.E_MISS" 24 .ro (some 0))
  | 0x11 => some (plain "XNG.E_LATE" 24 .ro (some 0))
  | 0x12 => some (plain "XNG.E_RCAST" 24 .ro (some 0))
  | 0x1F => some (plain "XNG.ECLR" 3 .wo (some 0))
  | _ => none

/-- The crossing paths of channel `c` (Table 10.10). -/
def chxPath (c k : Nat) : Option PathInfo :=
  let nm := "CH" ++ twoDigits c
  let valve := 32 ≤ c
  match k with
  | 0 => some (if valve then ranged (nm ++ ".LAT") 24 .st 3000000 "us" 10000 16000000
      else ranged (nm ++ ".LAT") 24 .st 20000 "us" 2000 250000)
  | 1 => some { name := nm ++ ".LATL", width := 24, access := .ro, reset := none,
                holds := if valve then .quantity "us" 10000 16000000 1 else .quantity "us" 2000 250000 1 }
  | 2 => some (plain (nm ++ ".LATM") 18 .ro (some 0) "us")
  | 3 => some (ranged (nm ++ ".LAG") 21 .st 0 "us" 0 2000000)
  | 4 => some (if valve then ranged (nm ++ ".CLAT") 18 .st 0 "us" 0 0
      else ranged (nm ++ ".CLAT") 18 .st 8000 "us" 0 250000)
  | 5 => some (ranged (nm ++ ".YOFS") 24 .st 0 "mm" (-30000) 30000)
  | 6 => some (split (nm ++ ".XCFG") 15 .st (some (if valve then 0x260 else 0x269))
      ((if valve then [{ lo := 0, width := 3, max := 0 }] else [full 0 3]) ++
        [full 3 1, { lo := 4, width := 11, max := 1536 }]))
  | 7 => some (split (nm ++ ".XSTAT") 16 .ro (some 0) [full 0 16])
  | _ => none

/-- Block 0x0F (Table 11.12). -/
def bstPath : Nat → Option PathInfo
  | 0 => some (split "BST.CFG" 23 .st (some 0x28F1E0)
      [{ lo := 0, width := 10, min := 240, max := 600, step := 5 }, full 10 1,
        { lo := 11, width := 8, min := 10, max := 80 }, full 19 4])
  | 1 => some (split "BST.STAT" 5 .ro (some 0) [full 0 5])
  | 2 => some (plain "BST.VMEAS" 10 .ro (some 0) "0.1V")
  | 3 => some (split "BST.EVT" 3 .w1c (some 0) [full 0 3])
  | 4 => some (split "SOL.ATTN" 15 .st (some 0x60C) [full 0 15])
  | 5 => some (plain "SOL.DSUM0" 24 .ro (some 0))
  | 6 => some (split "SOL.DSUM1" 16 .ro (some 0) [full 0 16])
  | _ => none

/-- The profile paths of solenoid channel `c` (Table 11.13). HOLD and PEAK take the pair ranges where a pair leads;
the range shown is the widest, and `setRefusal` judges the one in force. -/
def profPath (c k : Nat) : Option PathInfo :=
  let nm := "CH" ++ twoDigits c
  match k with
  | 0 => some (split (nm ++ ".PROF") 12 .st (some 0x9A9)
      [full 0 7, { lo := 7, width := 4, min := 1, max := 15 }, full 11 1])
  | 1 => some (ranged (nm ++ ".HOLD") 12 .st 500 "mA" 100 2000 10)
  | 2 => some (ranged (nm ++ ".PEAK") 13 .st 1500 "mA" 200 3000 10)
  | 3 => some (ranged (nm ++ ".TBOOST") 15 .st 1000 "us" 100 20000 10)
  | 4 => some (ranged (nm ++ ".TPEAK") 18 .st 40000 "us" 0 250000 100)
  | 5 => some (ranged (nm ++ ".PKPOST") 16 .st 1000 "us" 0 50000 100)
  | 6 => some (ranged (nm ++ ".TOFF") 16 .st 0 "us" 0 50000 100)
  | 7 => some (split (nm ++ ".PULSE") 14 .st (some 0xA)
      [{ lo := 0, width := 6, min := 5, max := 50 }, { lo := 6, width := 7, max := 99 }, full 13 1])
  | _ => none

/-- The status paths of solenoid channel `c` (Table 11.14). -/
def solPath (c k : Nat) : Option PathInfo :=
  let nm := "CH" ++ twoDigits c
  match k with
  | 0 => some (split (nm ++ ".DIPCFG") 18 .st (some 0x508)
      [{ lo := 0, width := 8, min := 1, max := 100 }, { lo := 8, width := 10, max := 1000 }])
  | 1 => some (split (nm ++ ".STAT") 9 .ro (some 0) [full 0 9])
  | 2 => some (plain (nm ++ ".IMEAS") 13 .ro (some 0) "mA")
  | 3 => some (split (nm ++ ".DIAG") 8 .w1c (some 0) [full 0 8])
  | 4 => some (split (nm ++ ".FAULT") 4 .ro (some 0) [full 0 4])
  | 5 => some (plain (nm ++ ".ACT_LO") 24 .ro none)
  | 6 => some (plain (nm ++ ".ACT_HI") 24 .ro none)
  | 7 => some (plain (nm ++ ".NLRUN") 4 .ro (some 0))
  | _ => none

/-- The paths of bank `b` (Table 11.15). -/
def bankPath (b k : Nat) : Option PathInfo :=
  let nm := "BANK" ++ toString b
  match k with
  | 0 => some (split (nm ++ ".CFG") 20 .st (some 0x0142C8)
      [{ lo := 0, width := 9, min := 100, max := 400 }, { lo := 9, width := 2, max := 2 }, full 11 2,
        { lo := 13, width := 7, min := 1, max := 100 }])
  | 1 => some (split (nm ++ ".STAT") 10 .ro (some 0) [full 0 10])
  | 2 => some (split (nm ++ ".FAULT") 5 .ro (some 0) [full 0 5])
  | 3 => some { name := nm ++ ".TEMP", width := 24, access := .ro, reset := none,
                holds := .quantity "C" (-8388608) 8388607 1 }
  | 4 => some (split (nm ++ ".EVT") 4 .w1c (some 0) [full 0 4])
  | _ => none

/-- The paths of slice `s` (Table 12.9). -/
def slicePath (s k : Nat) : Option PathInfo :=
  let nm := "PWM" ++ twoDigits s
  match k with
  | 0 => some (split (nm ++ ".CFG") 5 .st (some (if s < 8 then 0x11 else 0)) [full 0 5])
  | 1 => some (plain (nm ++ ".DUTY") 24 (if s < 8 then .ro else .rw) (some 0))
  | 2 => some (plain (nm ++ ".T") 24 .st (some 12000))
  | 3 => some (ranged (nm ++ ".PMIN") 24 .st 12000 "-" 240 16777215)
  | 4 => some (ranged (nm ++ ".PMAX") 24 .st 12000 "-" 240 16777215)
  | 5 => some (ranged (nm ++ ".PHASE") 24 .st 0 "-" 0 16777214)
  | 6 => some (split (nm ++ ".STAT") 7 .ro (some 0) [full 0 7])
  | 7 => some (plain (nm ++ ".PER") 24 .ro (some 0))
  | _ => none

/-- Block 0x14 (Table 12.10). -/
def pwmPath : Nat → Option PathInfo
  | 0 => some (plain "PWM.DIS" 12 .rw (some 0))
  | 1 => some (split "FLT.CFG" 6 .st (some 7) [full 0 6])
  | 2 => some (split "FLT.STAT" 6 .ro (some 0) [full 0 6])
  | 3 => some (split "FLT.EVT" 3 .w1c (some 0) [full 0 3])
  | 4 => some (split "PWM.CAL" 7 .ro (some 0) [full 0 7])
  | 5 => some (split "PWM.EVT" 13 .w1c (some 0) [full 0 13])
  | 6 => some (split "PWM.ATTN" 16 .st (some 0xE000) [full 0 16])
  | 7 => some (split "MV.ATTN" 4 .st (some 0xF) [full 0 4])
  | _ => none

/-- The paths of valve `v` (Table 12.11). -/
def valvePath (v k : Nat) : Option PathInfo :=
  let nm := "MV" ++ toString v
  match k with
  | 0 => some (split (nm ++ ".CFG") 19 .st (some 0x0220C1)
      [full 0 2, full 2 2, full 4 7, full 11 4, { lo := 15, width := 4, min := 2, max := 15 }])
  | 1 => some (ranged (nm ++ ".DUTY") 7 .st 100 "%" 10 100)
  | 2 => some (ranged (nm ++ ".TMAX") 16 .st 10000 "ms" 100 60000 10)
  | 3 => some (split (nm ++ ".LIMF") 12 .st (some 0xF14) [{ lo := 0, width := 8, min := 1, max := 255 }, full 8 4])
  | 4 => some (ranged (nm ++ ".BRAKE") 10 .st 100 "ms" 0 1000 10)
  | 5 => some (ranged (nm ++ ".PTGT") 10 .rw 0 "-" 0 1000)
  | 6 => some (ranged (nm ++ ".PDB") 8 .st 20 "-" 5 200)
  | 7 => some (ranged (nm ++ ".POS") 10 .ro 0 "-" 0 1000)
  | 8 => some (split (nm ++ ".STAT") 12 .ro (some 0) [full 0 12])
  | 9 => some (split (nm ++ ".FAULT") 4 .ro (some 0) [full 0 4])
  | 10 => some (split (nm ++ ".EVT") 4 .w1c (some 0) [full 0 4])
  | 11 => some (plain (nm ++ ".ACT_LO") 24 .ro none)
  | 12 => some (plain (nm ++ ".ACT_HI") 24 .ro none)
  | _ => none

/-- The paths of loop `l` (Table 13.9). -/
def loopPath (l k : Nat) : Option PathInfo :=
  let nm := "LOOP" ++ toString l
  match k with
  | 0 => some (split (nm ++ ".CFG") 24 .st (some 0)
      [full 0 1, { lo := 1, width := 5, max := 20 }, { lo := 6, width := 4, max := 12 }, full 10 14])
  | 1 => some (ranged (nm ++ ".PER") 6 .st 10 "ms" 1 50)
  | 2 => some (ranged (nm ++ ".SPH") 16 .st 0 "us" 0 49999)
  | 3 => some (ranged (nm ++ ".WPH") 16 .st 1000 "us" 20 49999)
  | 4 => some (ranged (nm ++ ".OMIN") 24 .st 0 "-" 0 0x100000)
  | 5 => some (ranged (nm ++ ".OMAX") 24 .st 0x100000 "-" 0 0x100000)
  | 6 => some (signed (nm ++ ".KP") .lv)
  | 7 => some (signed (nm ++ ".KI") .lv)
  | 8 => some (signed (nm ++ ".KD") .lv)
  | 9 => some (signed (nm ++ ".KV") .lv)
  | 10 => some (signed (nm ++ ".KN") .lv)
  | 11 => some (signed (nm ++ ".SP") .lv)
  | 12 => some (signed (nm ++ ".OFFS") .lv)
  | 13 => some (plain (nm ++ ".MAN") 1 .lv (some 0))
  | 14 => some (ranged (nm ++ ".MOUT") 24 .lv 0 "-" 0 0x100000)
  | 15 => some (signed (nm ++ ".PV") .ro)
  | 16 => some (signed (nm ++ ".SPE") .ro)
  | 17 => some (ranged (nm ++ ".U") 24 .ro 0 "-" 0 0x100000)
  | 18 => some (signed (nm ++ ".I") .ro)
  | 19 => some (split (nm ++ ".STAT") 10 .ro (some 0) [full 0 10])
  | 20 => some (plain (nm ++ ".SCNT") 24 .ro (some 0))
  | _ => none

/-- The paths of trace bank `b` (Table 13.10). Mode 7 with TSRC 8 is refused by `setRefusal`. -/
def trcPath (b k : Nat) : Option PathInfo :=
  let nm := "TRC" ++ toString b
  match k with
  | 0 => some (split (nm ++ ".CFG") 14 .st (some 0x200)
      [full 0 6, { lo := 6, width := 4, max := 8 }, { lo := 10, width := 4, max := 7 }])
  | 1 => some (ranged (nm ++ ".INT") 20 .st 1000 "us" 10 1000000)
  | 2 => some (signed (nm ++ ".LEVEL") .st)
  | 3 => some (ranged (nm ++ ".PRE") 11 .st 512 "-" 0 2047)
  | 4 => some (split (nm ++ ".STAT") 15 .ro (some 0) [full 0 15])
  | 5 => some (split (nm ++ ".TIDX") 13 .ro (some 0) [full 0 13])
  | 6 => some (plain (nm ++ ".TLO") 24 .ro (some 0) "us")
  | 7 => some (plain (nm ++ ".THI") 24 .ro (some 0))
  | _ => none

/-- Block 0x17 (Table 13.10). -/
def pilPath (i : Nat) : Option PathInfo :=
  if 0x10 ≤ i ∧ i < 0x30 then trcPath ((i - 0x10) / 8) ((i - 0x10) % 8)
  else match i with
  | 0 => some (split "PIL.STAT" 9 .ro (some 0) [full 0 9])
  | 1 => some (split "PIL.EVT" 8 .w1c (some 0) [full 0 8])
  | 2 => some (split "PIL.ATTN" 8 .st (some 0xFF) [full 0 8])
  | _ => none

/-- Block 0x18 (Table 13.11). -/
def ainPath (i : Nat) : Option PathInfo :=
  if i = 0 then some (split "AIN.CFG" 24 .st (some 0) [full 0 24])
  else if 0x10 ≤ i ∧ i < 0x1C then some (plain ("AIN" ++ toString (i - 0x10) ++ ".VAL") 14 .ro (some 0))
  else none

/-- Block 0x19 (Table 14.7). -/
def sfpPath (i : Nat) : Option PathInfo :=
  if i < 32 then
    let nm := "SFP" ++ toString (i / 8)
    match i % 8 with
    | 0 => some (split (nm ++ ".CFG") 15 .st (some 0x640)
        [full 0 4, { lo := 5, width := 10, min := 4, max := 1000 }])
    | 1 => some (plain (nm ++ ".MASK0") 24 .st (some 0xFFFFFF))
    | 2 => some (plain (nm ++ ".MASK1") 16 .st (some 0xFFFF))
    | 3 => some (split (nm ++ ".STAT") 9 .ro (some 0) [full 0 9])
    | 4 => some (plain (nm ++ ".DTIME") 11 .ro (some 0) "ms")
    | 5 => some (plain (nm ++ ".TRIPS") 24 .ro (some 0))
    | _ => none
  else match i with
  | 0x20 => some (split "SFP.EVT" 12 .w1c (some 0) [full 0 12])
  | 0x21 => some (split "SFP.ATTN" 12 .st (some 0xF0F) [full 0 12])
  | 0x22 => some (split "SFP.KILL" 6 .ro (some 0) [full 0 6])
  | 0x23 => some (plain "SFP.ECLR" 4 .wo (some 0))
  | _ => none

/-- Block 0x1A (Table 15.7). -/
def recPath (i : Nat) : Option PathInfo :=
  if 6 ≤ i ∧ i ≤ 9 then some (split ("REC.RATE" ++ toString (i - 6)) 24 .st (some 0x0A0A0A)
      ((List.range 3).map fun k => { lo := 8 * k, width := 8, min := 1, max := 255 }))
  else match i with
  | 0 => some (split "REC.STAT" 16 .ro none [full 0 16])
  | 1 => some (plain "REC.NEWEST" 24 .ro none)
  | 2 => some (plain "REC.OLDEST" 24 .ro none)
  | 3 => some (plain "REC.OPTIME" 24 .ro none "1/64h")
  | 4 => some (plain "REC.PCYCLE" 24 .ro none)
  | 5 => some (split "REC.MODE" 24 .st (some 0x05A924)
      (((List.range 11).map fun k => { lo := 2 * k, width := 2, max := 2 }) ++ [{ lo := 22, width := 2, max := 0 }]))
  | 0x0A => some (split "REC.EVT" 6 .w1c (some 0) [full 0 6])
  | 0x0B => some (split "REC.ATTN" 6 .st (some 1) [full 0 6])
  | 0x10 => some (plain "REC.E_LOST" 24 .ro (some 0))
  | 0x11 => some (plain "REC.E_AUTH" 24 .ro (some 0))
  | 0x1F => some (plain "REC.ECLR" 2 .wo (some 0))
  | _ => none

/-- Block 0x1B (Table 15.8). -/
def calPath (i : Nat) : Option PathInfo :=
  if 0x10 ≤ i ∧ i ≤ 0x14 then some (plain ("OWN.KEY" ++ toString (i - 0x10)) 24 .wo (some 0))
  else match i with
  | 0 => some (ranged "CAL.SECS" 17 .ro 0 "s" 0 86399)
  | 1 => some (ranged "CAL.DAYS" 18 .ro 0 "d" 0 146096)
  | 2 => some (split "CAL.STAT" 3 .ro (some 0) [full 0 3])
  | 0x15 => some (plain "OWN.KEY5" 8 .wo (some 0))
  | 0x16 => some (split "OWN.STAT" 5 .ro none [full 0 5])
  | 0x17 => some (ranged "OWN.TTL" 12 .st 300 "s" 10 3600)
  | _ => none

/-- The index: what stands at a block and an index (Tables 17.3 to 17.7); nothing anywhere else (R411, R414). -/
def pathAt (block i : Nat) : Option PathInfo :=
  match block with
  | 0x03 => pwrPath i
  | 0x04 => rstPath i
  | 0x05 => clkPath i
  | 0x06 => chnPath i
  | 0x07 => mnlPath i
  | 0x08 => staPath i
  | 0x09 => finPath i
  | 0x0A => encPath i
  | 0x0B => odoPath i
  | 0x0C => xngPath i
  | 0x0D => chxPath (i / 8) (i % 8)
  | 0x0E => if i < 64 then chxPath (32 + i / 8) (i % 8) else none
  | 0x0F => bstPath i
  | 0x10 => profPath (i / 8) (i % 8)
  | 0x11 => solPath (i / 8) (i % 8)
  | 0x12 => if i < 128 then bankPath (i / 16) (i % 16) else none
  | 0x13 => if i < 192 then slicePath (i / 16) (i % 16) else none
  | 0x14 => pwmPath i
  | 0x15 => if i < 128 then valvePath (i / 16) (i % 16) else none
  | 0x16 => loopPath (i / 32) (i % 32)
  | 0x17 => pilPath i
  | 0x18 => ainPath i
  | 0x19 => sfpPath i
  | 0x1A => recPath i
  | 0x1B => calPath i
  | _ => none

/-- The index by register address. -/
def pathInfo (a : Nat) : Option PathInfo := pathAt (a / 256) (a % 256)

/-- Every address of the index. -/
def allPaths : List Nat := (List.range 0x1C00).filter fun a => (pathInfo a).isSome

/-- The address of the register with this upper-case name (R173, R413). -/
def addrOfName (name : String) : Option Nat :=
  allPaths.find? fun a => match pathInfo a with
    | some p => p.name == name
    | none => false

/-- A field of a word: `width` bits from bit `lo` up (R8). -/
def fld (w : Word) (lo width : Nat) : Nat := (w.toNat / 2 ^ lo) % 2 ^ width

/-- A one-bit field. -/
def bit (w : Word) (n : Nat) : Bool := w.toNat.testBit n

/-- Whether the fields of a register admit the value `v`: every reserved bit 0, every field in its range and on its
step (R7, R9). -/
def fieldsAdmit (fs : List FieldSpec) (v : Nat) : Bool :=
  fs.all (fun f => let x := (v / 2 ^ f.lo) % 2 ^ f.width
    decide (f.min ≤ x) && decide (x ≤ f.max) && decide ((x - f.min) % f.step = 0))
  && decide (fs.foldl (fun r f => r + ((v / 2 ^ f.lo) % 2 ^ f.width) * 2 ^ f.lo) 0 = v)

/-- Whether a register admits a written value (R7, R9, R172). Steps count from 0, as the tables state them. -/
def PathInfo.admits (p : PathInfo) (v : Int) : Bool :=
  match p.holds with
  | .quantity _ lo hi step => decide (lo ≤ v) && decide (v ≤ hi) && decide (v % (step : Int) = 0)
  | .fields fs => decide (0 ≤ v) && decide (v < 2 ^ p.width) && fieldsAdmit fs v.toNat

/-- Whether the register shows two's complement (chapter 9): its range goes below 0. -/
def PathInfo.isSigned (p : PathInfo) : Bool :=
  match p.holds with
  | .quantity _ lo _ _ => decide (lo < 0)
  | .fields _ => false

/-- The word that holds a value. -/
def wordOf (v : Int) : Word := BitVec.ofInt 24 v

/-! ### The register file -/

/-- The value a register of the file has after reset. -/
def resetValue (a : Nat) : Word :=
  match pathInfo a with
  | some p => BitVec.ofNat 24 (p.reset.getD 0)
  | none => 0

namespace RegFile

/-- The register file's canonical form: rising addresses, and no entry that equals the value after reset. -/
def wf : List (Nat × Word) → Bool
  | [] => true
  | [(a, v)] => decide (v ≠ resetValue a)
  | (a, v) :: (b, w) :: rest => decide (v ≠ resetValue a) && decide (a < b) && wf ((b, w) :: rest)

/-- The value in force at an address. -/
def read : List (Nat × Word) → Nat → Word
  | [], a => resetValue a
  | (b, v) :: rest, a => if a = b then v else read rest a

/-- The file without its entry at an address. -/
def remove : List (Nat × Word) → Nat → List (Nat × Word)
  | [], _ => []
  | (b, v) :: rest, a => if a = b then rest else (b, v) :: remove rest a

/-- The file with an entry placed in order. -/
def insert : List (Nat × Word) → Nat → Word → List (Nat × Word)
  | [], a, v => [(a, v)]
  | (b, w) :: rest, a, v =>
    if a < b then (a, v) :: (b, w) :: rest
    else if a = b then (a, v) :: rest
    else (b, w) :: insert rest a v

/-- The file after a write: the entry goes where the value is the one after reset. -/
def write (f : List (Nat × Word)) (a : Nat) (v : Word) : List (Nat × Word) :=
  if v = resetValue a then remove f a else insert f a v

end RegFile

/-- The value in force of an ST, LV or plain RW register. -/
def State.reg (s : State) (a : Nat) : Word := RegFile.read s.regs a

/-- The value in force as a number. -/
def State.regN (s : State) (a : Nat) : Nat := (s.reg a).toNat

/-- The value in force of a signed register. -/
def State.regZ (s : State) (a : Nat) : Int := (s.reg a).toInt

/-- A register of the file takes a value. -/
def State.setReg (s : State) (a : Nat) (v : Word) : State := { s with regs := RegFile.write s.regs a v }

/-! ### Addresses of the registers the meanings read -/

namespace Reg

/-- PWR.EN0 to PWR.EN4. -/
def pwrEn (k : Nat) : Nat := 0x0300 + k
def pwrWake : Nat := 0x0310
def anchorDly : Nat := 0x0311
def vbatLow : Nat := 0x0312
def hoAct : Nat := 0x0313
def hoTime : Nat := 0x0314
def hldV : Nat := 0x0315
def hldI : Nat := 0x0316
def hldCfg : Nat := 0x0317
def reachNew : Nat := 0x0402
def wdt : Nat := 0x0405
def ckout : Nat := 0x0508
def chnPin : Nat := 0x0601
def mnlCfg : Nat := 0x0700
def conBaud : Nat := 0x0701
def strDist : Nat := 0x0802
def strTime : Nat := 0x0803
def strSrc : Nat := 0x0804
def finCfg (n : Nat) : Nat := 0x0900 + 4 * n
def finAttn : Nat := 0x0921
def encCfg (p : Nat) : Nat := 0x0A00 + 8 * p
def encPer (p : Nat) : Nat := 0x0A01 + 8 * p
def encZero (p : Nat) : Nat := 0x0A04 + 8 * p
def encJump (p : Nat) : Nat := 0x0A05 + 8 * p
def encAttn : Nat := 0x0A21
def odoCfg : Nat := 0x0B02
def odoDpp : Nat := 0x0B03
def odoVwin : Nat := 0x0B04
def odoAmax : Nat := 0x0B05
def odoStopt : Nat := 0x0B06
def odoSpdtmo : Nat := 0x0B07
def odoHitch : Nat := 0x0B08
def odoAttn : Nat := 0x0B10
def odoPreset : Nat := 0x0B11
def xngCfg : Nat := 0x0C00
def lateTol : Nat := 0x0C01
def tcVmin : Nat := 0x0C02
def vsel : Nat := 0x0C07
def xngAttn : Nat := 0x0C0C
/-- The crossing paths of channel `c`, path `k` of Table 10.10. -/
def chx (c k : Nat) : Nat := if c < 32 then 0x0D00 + 8 * c + k else 0x0E00 + 8 * (c - 32) + k
def lat (c : Nat) : Nat := chx c 0
def lag (c : Nat) : Nat := chx c 3
def clat (c : Nat) : Nat := chx c 4
def yofs (c : Nat) : Nat := chx c 5
def xcfg (c : Nat) : Nat := chx c 6
def bstCfg : Nat := 0x0F00
def solAttn : Nat := 0x0F04
def prof (c : Nat) : Nat := 0x1000 + 8 * c
def hold (c : Nat) : Nat := 0x1001 + 8 * c
def peak (c : Nat) : Nat := 0x1002 + 8 * c
def tboost (c : Nat) : Nat := 0x1003 + 8 * c
def tpeak (c : Nat) : Nat := 0x1004 + 8 * c
def pkpost (c : Nat) : Nat := 0x1005 + 8 * c
def toff (c : Nat) : Nat := 0x1006 + 8 * c
def pulse (c : Nat) : Nat := 0x1007 + 8 * c
def bankCfg (b : Nat) : Nat := 0x1200 + 16 * b
def pwmCfg (s : Nat) : Nat := 0x1300 + 16 * s
def pwmDuty (s : Nat) : Nat := 0x1301 + 16 * s
def pwmT (s : Nat) : Nat := 0x1302 + 16 * s
def pwmPmin (s : Nat) : Nat := 0x1303 + 16 * s
def pwmPmax (s : Nat) : Nat := 0x1304 + 16 * s
def pwmPhase (s : Nat) : Nat := 0x1305 + 16 * s
def pwmDis : Nat := 0x1400
def fltCfg : Nat := 0x1401
def pwmAttn : Nat := 0x1406
def mvAttn : Nat := 0x1407
def mvCfg (v : Nat) : Nat := 0x1500 + 16 * v
def mvDuty (v : Nat) : Nat := 0x1501 + 16 * v
/-- MVv.LIMF (R326). -/
def mvLimf (v : Nat) : Nat := 0x1503 + 16 * v
def mvTmax (v : Nat) : Nat := 0x1502 + 16 * v
def mvBrake (v : Nat) : Nat := 0x1504 + 16 * v
def mvPtgt (v : Nat) : Nat := 0x1505 + 16 * v
def mvPdb (v : Nat) : Nat := 0x1506 + 16 * v
def loop (l k : Nat) : Nat := 0x1600 + 32 * l + k
def pilAttn : Nat := 0x1702
def trc (b k : Nat) : Nat := 0x1710 + 8 * b + k
def ainCfg : Nat := 0x1800
def sfpCfg (p : Nat) : Nat := 0x1900 + 8 * p
def sfpMask0 (p : Nat) : Nat := 0x1901 + 8 * p
def sfpMask1 (p : Nat) : Nat := 0x1902 + 8 * p
def sfpAttn : Nat := 0x1921
def recMode : Nat := 0x1A05
def recRate (j : Nat) : Nat := 0x1A06 + j
def recAttn : Nat := 0x1A0B
def ownTtl : Nat := 0x1B17

end Reg

end Sys2Proof.Machine
end

