-- ==== Sys2Proof/Machine/Text.lean ====
section
/-! DEFINITION. The text of the chain and the console: the CRC-8 of sequences and lines (R138, R177), and the
generated form of replies and notices (R176, R180). -/
namespace Sys2Proof

/-- One bit of the CRC-8: polynomial 0x07, no reflection. -/
def crcBit (c : Byte) : Byte := if c.msb then (c <<< 1) ^^^ 0x07 else c <<< 1

/-- The CRC-8 after one more byte. -/
def crcByte (c b : Byte) : Byte := crcBit (crcBit (crcBit (crcBit (crcBit (crcBit (crcBit (crcBit (c ^^^ b))))))))

/-- The CRC-8 of bytes in order, initial value 0x00 (R138, R177). -/
def crc8 (bytes : List Byte) : Byte := bytes.foldl crcByte 0

/-- The bytes of a text. -/
def bytesOf (t : String) : List Byte := t.toList.map fun c => BitVec.ofNat 8 c.toNat

/-- A sequence's data characters, if it arrived whole, has `n` of them with the CRC, and its CRC holds (R138). -/
def SeqArrival.data (q : SeqArrival) (n : Nat) : Option (List Byte) :=
  match q with
  | .cut _ => none
  | .whole bytes =>
    if bytes.length = n ∧ crc8 (bytes.take (n - 1)) = bytes.getD (n - 1) 0 then some (bytes.take (n - 1)) else none

/-- Whether a sequence arrived whole with its length, whatever its CRC. -/
def SeqArrival.isWhole (q : SeqArrival) (n : Nat) : Bool :=
  match q with
  | .cut _ => false
  | .whole bytes => decide (bytes.length = n)

end Sys2Proof

namespace Sys2Proof.Machine

open Sys2Proof

/-- The data of a sequence with its CRC appended. -/
def withCrc (data : List Byte) : List Byte := data ++ [crc8 data]

/-- The number in bytes, least significant first (Tables 5.6, 6.5). -/
def leNat : List Byte → Nat
  | [] => 0
  | b :: rest => b.toNat + 256 * leNat rest

/-- A number in `k` bytes, least significant first. -/
def leBytes : Nat → Nat → List Byte
  | 0, _ => []
  | k + 1, n => BitVec.ofNat 8 n :: leBytes k (n / 256)

/-- One upper-case hexadecimal digit. -/
def hexDigit (n : Nat) : Char :=
  if n < 10 then Char.ofNat (48 + n) else Char.ofNat (55 + n)

/-- `k` upper-case hexadecimal digits of a number. -/
def hexText : Nat → Nat → List Char
  | 0, _ => []
  | k + 1, n => hexText k (n / 16) ++ [hexDigit (n % 16)]

/-- An element of a reply or notice in generated form (R176, R359). -/
def Tok.text : Tok → String
  | .word s => s
  | .num n => toString n
  | .serial n => "#" ++ String.ofList (hexText 12 n.toNat)
  | .block es => String.ofList (es.flatMap fun w => hexText 6 w.toNat)

/-- Elements with single spaces between them. -/
def joinToks (ts : List Tok) : String := String.intercalate " " (ts.map Tok.text)

/-- The names of the error codes (Table 7.4). -/
def errName : Nat → String
  | 10 => "SYNTAX"
  | 11 => "UNKNOWN"
  | 12 => "RANGE"
  | 13 => "STATE"
  | 14 => "OWNER"
  | 15 => "AUTH"
  | 16 => "BUSY"
  | 17 => "FULL"
  | 18 => "ACTIVE"
  | 19 => "DATE"
  | 20 => "CHECK"
  | 21 => "GONE"
  | 22 => "UNTESTED"
  | 23 => "LOCKED"
  | _ => "STALE"

/-- A line with a space and its checksum at the end (R176, R177). -/
def withChecksum (line : String) : String :=
  line ++ " ~" ++ String.ofList (hexText 2 (crc8 (bytesOf (line ++ " "))).toNat)

/-- The address a reply starts with: `=n`, or `=0/` and the serial number (R180). -/
def replyHead (c : Chain) : String :=
  if c.addr = 0 then "=0/" ++ (Tok.serial c.serial).text else "=" ++ toString c.addr.toNat

/-- A reply's detail behind its head: of one too long for a reply of 120 characters its front, the checksum's 4 included (Table 6.2; DESIGN CHOICE,
log 98). -/
def withDetail (head detail : String) : String :=
  if detail.isEmpty then head else head ++ " " ++ String.ofList (detail.toList.take (115 - head.length))

/-- A reply without its checksum (R180). -/
def replyText (c : Chain) (b : ReplyBody) : String :=
  match b with
  | .ok ts => joinToks (.word (replyHead c) :: .word "OK" :: ts)
  | .err e => withDetail (joinToks [.word (replyHead c), .word "ERR", .num (e.code : Int), .word (errName e.code)]) (joinToks e.detail)

/-- A notice without its checksum (R180). -/
def noticeText (c : Chain) (ts : List Tok) : String :=
  joinToks (.word ("!" ++ toString c.addr.toNat) :: .word "EVENT" :: ts)

end Sys2Proof.Machine
end

