-- ==== Sys2Proof/Machine/Ops.lean ====
section
/-! DEFINITION. The named operations every family shares: saturating counters and flags, the recorder's write with its
flood handling (R374 to R381), notices (R140, R180), replies (R180 to R182), the wires, power domains, and the change
of the unit's state (R201). -/
namespace Sys2Proof

/-- The opposite port. -/
def Port.other : Port → Port
  | .bow => .stern
  | .stern => .bow

/-- 0 for the bow port, 1 for the stern port, as every table codes it. -/
def Port.code : Port → Nat
  | .bow => 0
  | .stern => 1

/-- A port's name in notices and replies. -/
def Port.word : Port → String
  | .bow => "BOW"
  | .stern => "STERN"

/-- A source's name in notices (R389). -/
def Source.word : Source → String
  | .chain => "CHAIN"
  | .console => "CONSOLE"

/-- 0 for the chain, 1 for the console (Table 15.4). -/
def Source.code : Source → Nat
  | .chain => 0
  | .console => 1

/-- The other end of a valve. -/
def ValveEnd.other : ValveEnd → ValveEnd
  | .open_ => .closed
  | .closed => .open_

/-- What of a sequence is on the wire. -/
def SeqArrival.wire (q : SeqArrival) (code : Byte) : Machine.WireItem :=
  match q with
  | .whole bytes => .seq code bytes
  | .cut bytes => .seq code bytes

end Sys2Proof

namespace Sys2Proof.Machine

open Sys2Proof

/-! ### Small helpers -/

/-- A counter that sticks at 0xFFFFFF (R167). -/
def satInc (w : Word) : Word := if w = 0xFFFFFF then w else w + 1

/-- A counter that sticks at 0xFFFFFF takes `n` more (R167). -/
def satAdd (w : Word) (n : Nat) : Word := BitVec.ofNat 24 (Nat.min 0xFFFFFF (w.toNat + n))

/-- A flag word with bit `k` set. -/
def raise {n : Nat} (w : BitVec n) (k : Nat) : BitVec n := w ||| BitVec.ofNat n (2 ^ k)

/-- A flag word with bit `k` cleared. -/
def drop {n : Nat} (w : BitVec n) (k : Nat) : BitVec n := w &&& ~~~(BitVec.ofNat n (2 ^ k))

/-- A flag word with bit `k` given. -/
def put {n : Nat} (w : BitVec n) (k : Nat) (b : Bool) : BitVec n := if b then raise w k else drop w k

/-- 1 for true, 0 for false. -/
def b2n (b : Bool) : Nat := if b then 1 else 0

/-- Chain time `n` microseconds later. -/
def after (t : ChainTime) (n : Nat) : ChainTime := t + BitVec.ofNat 48 n

/-- The low 24 bits of chain time (R118). -/
def tlo (t : ChainTime) : Word := t.setWidth 24

/-- The high 24 bits of chain time (R118). -/
def thi (t : ChainTime) : Word := (t >>> 24).setWidth 24

/-- Rounding of a quotient to the nearest integer, ties away from zero. -/
def roundDiv (n : Int) (d : Nat) : Int :=
  if 0 ≤ n then (2 * n + d) / (2 * d) else -((2 * (-n) + d) / (2 * d))

/-- A quotient of naturals rounded to the nearest. -/
def divNear (n d : Nat) : Nat := (2 * n + d) / (2 * d)

/-- A ratio rounded to the nearest integer. -/
def Frac.round (f : Frac) : Int := roundDiv f.num f.den

/-- A value held to a range. -/
def clampZ (lo hi v : Int) : Int := if v < lo then lo else if hi < v then hi else v

/-! ### Power domains and the running purser -/

/-- Whether power domain `d` is on (PWR.ON). -/
def State.domainOn (s : State) (d : Nat) : Bool := s.power.on.getLsbD d

/-- Whether the enable bit of power domain `d` is 1 in force. -/
def State.domainEnabled (s : State) (d : Nat) : Bool := bit (s.reg (Reg.pwrEn (d / 24))) (d % 24)

/-- The parents of a power domain (Table 3.2). -/
def domainParents (d : Nat) : List Nat :=
  if d < 32 then [32 + d / 4, 40 + d / 4]
  else if 48 ≤ d ∧ d < 56 then [d + 8]
  else if 84 ≤ d ∧ d < 92 then [92]
  else if 93 ≤ d ∧ d < 97 then [92]
  else if 97 ≤ d ∧ d < 101 then [101]
  else []

/-- Whether a domain's enable bit and those of all its parents are 1 (R53). -/
def State.domainWanted (s : State) (d : Nat) : Bool :=
  s.domainEnabled d && (domainParents d).all s.domainEnabled

/-- Whether firmware runs and the purser takes lines: the unit is up, no reset is asserted and no debug halt. -/
def State.live (s : State) : Bool := decide (s.phase = .running) && !s.rst.halted

/-- Whether the core logic runs, the purser halted or not, a reset at Reach 1 or a boot included. -/
def State.coreUp (s : State) : Bool :=
  match s.phase with
  | .running => true
  | .boot => true
  | .inReset => decide (s.rst.level = 1)
  | _ => false

/-- Whether the logic of a port is on: PD104 bow, PD105 stern (Table 1.4). -/
def State.portOn (s : State) (p : Port) : Bool := s.domainOn (104 + p.code)

/-- Whether the port logic decodes what it receives: the core runs and the ports are driven (R163, R156). -/
def State.onChain (s : State) : Bool := s.coreUp && !s.chain.released && s.portOn s.chain.upPort

/-- Whether a supervisor or a comparator acts: beyond the band of its threshold it does or does not, and within it that is a free value (R400). -/
def bandActs (k : Supervisor) (clk : Nat) (sure may : Bool) : Bool := sure || may && Config.inBand k clk

/-- Whether the oscillators run and are judged: also under a reset at Reach 2, which keeps the XO, the CLPLL and the checker in
CD08 (Table 4.3), and while power-up runs (Table 3.5); not in ANCHORED and under a higher Reach. -/
def State.clocksRun (s : State) : Bool :=
  match s.phase with
  | .anchored => false
  | .inReset => decide (s.rst.level ≤ 2)
  | _ => true

/-- Whether the IRC and the LXO judge one another: the checker stands in CD08, which only Reach 4 resets, and the IRC runs everywhere outside ANCHORED
(R87, R107, R110, R111). -/
def State.checkerRuns (s : State) : Bool :=
  match s.phase with
  | .anchored => false
  | .inReset => decide (s.rst.level ≤ 3)
  | _ => true

/-! ### The recorder -/

/-- The category of an event code (R378). -/
def codeCategory (code : Nat) : Nat := code / 64

/-- The flood mode of a category: 0 NONE, 1 REPEAT, 2 RATE; category 11 is always NONE (R378). -/
def State.floodMode (s : State) (cat : Nat) : Nat := if cat = 11 then 0 else fld (s.reg Reg.recMode) (2 * cat) 2

/-- The records a category's code may write in one window (R380). -/
def State.rateLimit (s : State) (cat : Nat) : Nat := fld (s.reg (Reg.recRate (cat / 3))) (8 * (cat % 3)) 8

/-- The records held: the newest 4096 of those committed and those in the queue (R374, R376). -/
def Recorder.held (r : Recorder) : List Record :=
  let all := r.nvm ++ r.queue
  all.drop (all.length - 4096)

/-- A record enters the queue, or is dropped where the queue is full (R376). -/
def Recorder.push (r : Recorder) (code source rep : Nat) (data : Word) : Recorder :=
  if 32 ≤ r.queue.length then
    { r with eLost := satInc r.eLost, evt := raise r.evt 0, lost := r.lost + 1 }
  else
    { r with
      queue := r.queue ++ [{ seq := r.next, optime := r.optime, pcycle := r.pcycle, code := BitVec.ofNat 10 code,
                             source := BitVec.ofNat 6 source, rep := BitVec.ofNat 16 rep, data := data }]
      next := r.next + 1 }

/-- A record, and its CONT record where it has one, are written and become the newest (R379, R381). -/
def Recorder.writeNew (r : Recorder) (code source : Nat) (data : Word) (cont : Option Word) : Recorder :=
  let r1 := r.push code source 1 data
  let r2 := match cont with
    | some c => r1.push 0x2C0 source 1 c
    | none => r1
  if r.queue.length < 32 then { r2 with last := some (r.next, cont) } else r2

/-- A list of records with 1 added to the REPEAT of the record `seq`. -/
def bumpRepeat (seq : Word) (l : List Record) : List Record :=
  l.map fun x => if x.seq = seq then { x with rep := x.rep + 1 } else x

/-- The newest record that may take a repeat of this event, its REPEAT short of its end (R379, R381). -/
def Recorder.repeatOf (r : Recorder) (code source : Nat) (data : Word) (cont : Option Word) : Option Record :=
  match r.last with
  | none => none
  | some (seq, c) =>
    match (r.nvm ++ r.queue).find? (fun x => decide (x.seq = seq)) with
    | some x =>
      if x.code.toNat = code ∧ x.source.toNat = source ∧ x.data = data ∧ c = cont ∧ x.rep ≠ 65535 then some x else none
    | none => none

/-- Mode REPEAT: the event adds to the newest record or writes a new one; the repeat that brings REPEAT to 65 535
also writes REPEAT SAT (R379). -/
def Recorder.writeRepeat (r : Recorder) (code source : Nat) (data : Word) (cont : Option Word) : Recorder :=
  match r.repeatOf code source data cont with
  | none => r.writeNew code source data cont
  | some x =>
    let committed := (r.nvm.find? (fun y => decide (y.seq = x.seq))).isSome
    let r1 := { r with nvm := bumpRepeat x.seq r.nvm, queue := bumpRepeat x.seq r.queue,
                       repeatDue := r.repeatDue || committed }
    if x.rep = 65534 then
      ({ r1 with evt := raise r1.evt 1 } : Recorder).writeNew 0x2C5 63 x.seq none
    else r1

/-- Mode RATE: within a window the first `n` events of a code are written and the rest counted (R380). -/
def Recorder.writeRate (r : Recorder) (n code source : Nat) (data : Word) (cont : Option Word) : Recorder :=
  match r.window with
  | none => r.writeNew code source data cont
  | some _ =>
    let k := BitVec.ofNat 10 code
    match r.rates.find? (fun x => decide (x.code = k)) with
    | none =>
      if n = 0 then { r with rates := r.rates ++ [{ code := k, written := 0, suppressed := 1 }] }
      else ({ r with rates := r.rates ++ [{ code := k, written := 1, suppressed := 0 }] } : Recorder).writeNew code source data cont
    | some x =>
      if x.written < n then
        ({ r with rates := r.rates.map fun (y : RateCount) =>
            if y.code = k then { y with written := y.written + 1 } else y } : Recorder).writeNew
          code source data cont
      else
        { r with rates := r.rates.map fun (y : RateCount) =>
            if y.code = k then { y with suppressed := Nat.min 65535 (y.suppressed + 1) } else y }

/-- The microseconds of CD08 time, which goes on at IRC ÷ 488 once the LXO has failed (R111). -/
def State.cdUs (s : State) : Nat := s.cd08 / 100000000

/-- The CD08 cycle a microsecond of CD08 time stands in: 32 768 Hz. -/
def cd08Cycle (cdUs : Nat) : Nat := cdUs * 32768 / 1000000

/-- A rate count is placed in ascending order of its code. -/
def insertRate (x : RateCount) : List RateCount → List RateCount
  | [] => [x]
  | y :: rest => if x.code ≤ y.code then x :: y :: rest else y :: insertRate x rest

/-- Counts in ascending order of code. -/
def sortRates (l : List RateCount) : List RateCount := l.foldr insertRate []

/-- A SUPPRESSED record: its REPEAT holds the number suppressed (R380). -/
def Recorder.suppressed (r : Recorder) (x : RateCount) : Recorder :=
  let r1 := r.push 0x2C2 63 x.suppressed (x.code.setWidth 24)
  if r.queue.length < 32 then { r1 with last := some (r.next, none) } else r1

/-- The end of a rate window: a SUPPRESSED record for each code with a count, ascending; then all counts are 0 (R380). -/
def Recorder.endWindow (r : Recorder) (start : Nat) : Recorder :=
  let r1 := (sortRates (r.rates.filter fun x => decide (0 < x.suppressed))).foldl Recorder.suppressed r
  { r1 with rates := [], window := some start }

/-- Whether the 60 s of the rate window end in the CD08 cycle a microsecond of CD08 time stands in (R380). -/
def Recorder.windowOver (r : Recorder) (cdUs : Nat) : Bool :=
  match r.window with
  | some t => decide (cd08Cycle (t + 60000000) ≤ cd08Cycle cdUs)
  | none => false

/-- A window that is over ends, and the next begins with it (R380). -/
def Recorder.roll (r : Recorder) (cdUs : Nat) : Recorder :=
  match r.window with
  | some t => if r.windowOver cdUs then r.endWindow (t + 60000000) else r
  | none => r

/-- An event is recorded under the flood mode of its category (R378 to R381); PD103 and AON hold the recorder. An event of the
CD08 cycle that ends a rate window counts in the new one, after the SUPPRESSED records of the old (R380). -/
def State.record (s : State) (code source : Nat) (data : Word) (cont : Option Word := none) : State :=
  let cat := codeCategory code
  { s with recorder :=
      match s.floodMode cat with
      | 1 => s.recorder.writeRepeat code source data cont
      | 2 => (s.recorder.roll s.cdUs).writeRate (s.rateLimit cat) code source data cont
      | _ => s.recorder.writeNew code source data cont }

/-- Every record of the queue is committed to NVM in order (R376). -/
def Recorder.commitAll (r : Recorder) : Recorder :=
  { r with nvm := r.held, queue := [], nvmNext := r.next, repeatDue := false }

/-! ### Notices and replies -/

/-- The number of notices in the queue, those a helm swap holds included (CHN.NQ). -/
def Chain.notices (c : Chain) : Nat :=
  (c.upQ.filter fun u => match u with | .notice _ => true | _ => false).length + c.upHeld.length

/-- Text appears on the console, ended by CR LF (R199), while PD106 is on; from a reset's assertion to the end of the boot CTX holds its
reset state (R28, R94). -/
def State.conSend (s : State) (line : String) : State :=
  if !s.domainOn 106 || decide (s.phase ≠ .running) then s
  else { s with manil := { s.manil with conTx := s.manil.conTx ++ bytesOf line ++ [13, 10] } }

/-- A line for the console, with its checksum where MNL.CFG.CONSUM is 1 (R176). -/
def State.conLineOut (s : State) (line : String) : State :=
  s.conSend (if bit (s.reg Reg.mnlCfg) 1 then withChecksum line else line)

/-- A frame or sequence of the unit's own joins its queue for UP (R140). -/
def State.queueUp (s : State) (u : UpItem) : State :=
  { s with chain := { s.chain with upQ := s.chain.upQ ++ [u] } }

/-- A notice: queued for the chain, dropped and counted where 16 wait (R140), dropped while every pair receives
(R182, R201) unless a helm swap holds notices (R162); shown on the console when MNL.CFG.NOTICE is 1 (R180). -/
def State.notice (s : State) (text : List Tok) : State :=
  let s1 :=
    if s.chain.released && !s.chain.swapHold then s
    else if 16 ≤ s.chain.notices then
      { s with chain := { s.chain with evt := raise s.chain.evt 10, eNlost := satInc s.chain.eNlost } }
    else if s.chain.swapHold then { s with chain := { s.chain with upHeld := s.chain.upHeld ++ [.notice text] } }
    else s.queueUp (.notice text)
  if bit (s.reg Reg.mnlCfg) 3 then s1.conLineOut (noticeText s.chain text) else s1

/-- The reply of a RESET line has left its port `wait` µs from now, or never will: its delay runs (R85, R86, R182). -/
def State.resetReplyLeft (s : State) (wait : Nat := 0) : State :=
  { s with rst := { s.rst with soft := s.rst.soft.map fun (x : SoftReset) =>
      if x.due.isSome then x else { x with unsent := false, due := some (s.clk + 1 + wait + x.delay) } } }

/-- A reply to a line: queued for the chain, dropped while every pair receives (R182); on the console sent with
CR LF (R199). The reset of a RESET line waits for its reply to leave (R85), and a reply that is dropped holds up nothing. -/
def State.reply (s : State) (src : Source) (b : ReplyBody) (reset : Bool) : State :=
  let gone (t : State) : State := if reset then t.resetReplyLeft else t
  match src with
  | .chain => if s.chain.released then gone s else s.queueUp (.reply b reset)
  | .console => gone (s.conLineOut (replyText s.chain b))

/-! ### Wires -/

/-- Ten times the ratio VCO ÷ CK of a rate code (Table 5.2). -/
def rateRatio10 : Nat → Nat
  | 1 => 4800
  | 2 => 3840
  | 3 => 3000
  | 4 => 2400
  | 5 => 1920
  | 6 => 1500
  | 7 => 1200
  | 8 => 960
  | 9 => 750
  | 10 => 600
  | 11 => 480
  | 12 => 384
  | 13 => 300
  | 14 => 240
  | 15 => 192
  | _ => 0

/-- How long a character takes, 9 CK cycles (R130, R131), in 1/4800 µs, at the rate recognised or the last one that was; before the
first a character is taken to last 1 µs (DESIGN CHOICE, log 77). -/
def Clocks.charTime (c : Clocks) : Nat :=
  let r := if c.rate = 0 then c.lastRate else c.rate
  if r = 0 then 4800 else 9 * rateRatio10 r.val

/-- The characters of an item (R131, R136, R137). -/
def WireItem.chars : WireItem → List ChainChar
  | .frame kind text => (0x100 ||| kind.setWidth 9) :: (text.map (·.setWidth 9) ++ [0x102])
  | .cut kind text => (0x100 ||| kind.setWidth 9) :: text.map (·.setWidth 9)
  | .seq code bytes => (0x100 ||| code.setWidth 9) :: bytes.map (·.setWidth 9)
  | .char c => [c]

/-- An item leaves on the upstream UP pair, which nothing drives while its port's logic is off (R28, Table 1.4). -/
def State.sendUp (s : State) (w : WireItem) : State :=
  if s.portOn s.chain.upPort then { s with chain := { s.chain with upWire := s.chain.upWire ++ [w] } } else s

/-- An item leaves on the downstream DN pair, unless every pair receives (R156) or the port's logic is off (R28, Table 1.4). -/
def State.sendDn (s : State) (w : WireItem) : State :=
  if s.chain.released || !s.portOn s.chain.upPort.other then s
  else { s with chain := { s.chain with dnWire := s.chain.dnWire ++ [w] } }

/-- Whether this port is the upstream port, its receiver then that of DN; else it is downstream and hears UP (R129). -/
def State.isUpstream (s : State) (p : Port) : Bool := !s.chain.released && decide (p = s.chain.upPort)

/-- Whether what arrives on UP can leave at once: the UP buffer is empty and nothing inserted is still leaving (R140). -/
def State.upFree (s : State) : Bool := s.chain.upBuf.isEmpty && decide (s.chain.upBusy < 4800)

/-- An item that arrives on UP leaves at once, or its characters queue behind those in the UP buffer, which holds 1024 (R140). -/
def State.relayUp (s : State) (w : WireItem) : State :=
  if s.upFree then s.sendUp w
  else { s with chain := { s.chain with upBuf := (s.chain.upBuf ++ w.chars).take 1024 } }

/-- A character that never waits takes the next slot on UP: the character it displaces, the next of the UP buffer, waits for it (R141). -/
def State.seizeUp (s : State) (c : ChainChar) : State :=
  let s1 := s.sendUp (.char c)
  { s1 with chain := { s1.chain with upBusy := s.chain.upBusy + s.clocks.charTime } }

/-- An item forwarded in its direction of travel (R139): from the upstream port downstream, from the downstream port
upstream. -/
def State.forward (s : State) (p : Port) (w : WireItem) : State :=
  if s.chain.released then s else if p = s.chain.upPort then s.sendDn w else s.relayUp w

/-- KILL forwarded in its direction of travel, past the UP buffer (R141, R142). -/
def State.forwardKill (s : State) (p : Port) : State :=
  if s.chain.released then s else if p = s.chain.upPort then s.sendDn (.char 0x104) else s.seizeUp 0x104

/-- `n` IDLE characters in place of what a receiver takes in that is not aligned (R133); on UP the buffer drains instead (R140). -/
def State.forwardIdle (s : State) (p : Port) : Nat → State
  | 0 => s
  | n + 1 =>
    (if s.chain.released then s
    else if p = s.chain.upPort then s.sendDn (.char 0x100)
    else if s.upFree then s.sendUp (.char 0x100) else s).forwardIdle p n

/-- Whether the gangway forwards (R63, R66, R163): a core that does not run stands under a reset, or powers up; before `gangwayFrom` a rail is
absent, a power-down still runs, or step 1 of a power-up that the WAKE pin began is not over. -/
def State.gangwayOn (s : State) : Bool := s.chain.gangway && !s.coreUp && decide (s.chain.gangwayFrom ≤ s.clk)

/-- What the gangway forwards, unchanged, for a core that does not run: from its upstream side downstream, from the other side upstream
(R163). Nothing passes where it is off. -/
def State.gangwayPass (s : State) (p : Port) (w : WireItem) : State :=
  if !s.gangwayOn then s
  else if p = s.chain.gangwayUp then { s with chain := { s.chain with dnWire := s.chain.dnWire ++ [w] } }
  else { s with chain := { s.chain with upWire := s.chain.upWire ++ [w] } }

/-- The port at which what travels downstream arrives: the upstream port, or the gangway's upstream side. -/
def State.dnIn (s : State) : Port := if s.onChain then s.chain.upPort else s.chain.gangwayUp

/-- The port at which what travels upstream arrives. -/
def State.upIn (s : State) : Port := s.dnIn.other

/-- The port's state. -/
def Chain.port (c : Chain) : Port → PortState
  | .bow => c.bow
  | .stern => c.stern

/-- The chain with a port's state replaced. -/
def Chain.setPort (c : Chain) (p : Port) (x : PortState) : Chain :=
  match p with
  | .bow => { c with bow := x }
  | .stern => { c with stern := x }

/-- The port's state is changed. -/
def State.modPort (s : State) (p : Port) (f : PortState → PortState) : State :=
  { s with chain := s.chain.setPort p (f (s.chain.port p)) }

/-- What a receiver takes in that is not aligned: each character is invalid, a CHAR error, and IDLE is forwarded in its place (R133, R134). -/
def State.deaf (s : State) (p : Port) (n : Nat) : State :=
  (s.modPort p fun x => { x with eChar := satAdd x.eChar n }).forwardIdle p n

/-- What arrives at a port: the gangway passes it where the core does not run (R163), a port that is off takes nothing, a receiver that is
not aligned makes IDLE of it (R133), and else it is taken as `take` says. -/
def State.receive (s : State) (p : Port) (w : WireItem) (take : State → State) : State :=
  if !s.onChain then s.gangwayPass p w
  else if !s.portOn p then s
  else if !(s.chain.port p).aligned then s.deaf p w.chars.length
  else take s

/-- One FRAME error at a port (R136). -/
def State.frameError (s : State) (p : Port) : State := s.modPort p fun x => { x with eFrame := satInc x.eFrame }

/-- One CRC error at a port (R138). -/
def State.crcError (s : State) (p : Port) : State := s.modPort p fun x => { x with eCrc := satInc x.eCrc }

/-- The error a sequence earns where it is not taken: FRAME where it was cut, CRC where its CRC fails (R137, R138). -/
def State.seqError (s : State) (p : Port) (q : SeqArrival) (n : Nat) : State :=
  if q.isWhole n then s.crcError p else s.frameError p

/-- A CHN.EVT flag is set. -/
def State.chnEvt (s : State) (k : Nat) : State := { s with chain := { s.chain with evt := raise s.chain.evt k } }

/-- A CLK.EVT flag is set. -/
def State.clkEvt (s : State) (k : Nat) : State := { s with clocks := { s.clocks with evt := raise s.clocks.evt k } }

/-- A reset at Reach 2 or above holds CLK.EVT at its reset value and writes no record while it is asserted (R87). -/
def State.clkHeld (s : State) : Bool := decide (s.phase = .inReset) && !s.coreUp

/-- A CLK.EVT flag is set, unless a reset holds it. -/
def State.clkFlag (s : State) (k : Nat) : State := if s.clkHeld then s else s.clkEvt k

/-- A failure of an oscillator sets its flag and writes its record, unless a reset holds both (R109 to R111). -/
def State.clkFailure (s : State) (k code : Nat) : State := if s.clkHeld then s else (s.clkEvt k).record code 63 0

/-- A PWR.EVT flag is set. -/
def State.pwrEvt (s : State) (k : Nat) : State := { s with power := { s.power with evt := raise s.power.evt k } }

/-- A STA.EVT flag is set. -/
def State.staEvt (s : State) (k : Nat) : State := { s with unit := { s.unit with evt := raise s.unit.evt k } }

/-- An XNG.EVT flag is set. -/
def State.xngEvt (s : State) (k : Nat) : State := { s with engine := { s.engine with evt := raise s.engine.evt k } }

/-- An ODO.EVT flag is set. -/
def State.odoEvt (s : State) (k : Nat) : State := { s with motion := { s.motion with evt := raise s.motion.evt k } }

/-! ### Unit state -/

/-- The code of a state in STA.STATE [2:0]. -/
def UnitState.code : UnitState → Nat
  | .moored => 1
  | .ready => 2
  | .underway => 3
  | .stranded => 4
  | .safe => 5
  | .drydock => 6

/-- The name of a state. -/
def UnitState.word : UnitState → String
  | .moored => "MOORED"
  | .ready => "READY"
  | .underway => "UNDERWAY"
  | .stranded => "STRANDED"
  | .safe => "SAFE"
  | .drydock => "DRYDOCK"

/-- The causes of a change of state (R201), coded as the STATE record codes them. -/
inductive StateCause where
  | boot
  | arm
  | go
  | halt
  | moor
  | kill
  | stop
  | cklost
  | limit
  | handover
  | return_
  | selftest
  | discrep
  | resume
deriving DecidableEq, Repr

/-- The code of a cause in the STATE record. -/
def StateCause.code : StateCause → Nat
  | .boot => 0
  | .arm => 1
  | .go => 2
  | .halt => 3
  | .moor => 4
  | .kill => 5
  | .stop => 6
  | .cklost => 7
  | .limit => 8
  | .handover => 9
  | .return_ => 10
  | .selftest => 11
  | .discrep => 12
  | .resume => 13

/-- The name of a cause in the notice. -/
def StateCause.word : StateCause → String
  | .boot => "BOOT"
  | .arm => "ARM"
  | .go => "GO"
  | .halt => "HALT"
  | .moor => "MOOR"
  | .kill => "KILL"
  | .stop => "STOP"
  | .cklost => "CKLOST"
  | .limit => "LIMIT"
  | .handover => "HANDOVER"
  | .return_ => "RETURN"
  | .selftest => "SELFTEST"
  | .discrep => "DISCREP"
  | .resume => "RESUME"

/-- The pair history and the estimates start anew (R242 step 1, R247, R248). -/
def Motion.restart (m : Motion) : Motion :=
  { m with pairs := [], moving := false, vel := {}, acc := {}, speedRestart := true }

/-- A unit that leaves STRANDED returns to the source of ODO.CFG.SRC where it had been switched (R248). -/
def Motion.returnSource (m : Motion) : Motion :=
  match m.switched with
  | none => m
  | some _ => { m.restart with switched := none }

/-- No manual demand is left on a solenoid channel. -/
def SolChan.clearManual (ch : SolChan) : SolChan := { ch with manual := .none }

/-- No manual demand is left on a valve. -/
def Valve.clearManual (y : Valve) : Valve := { y with manual := .none }

/-- Every change of state writes a STATE record and sends the notice (R201); entering STRANDED or SAFE sets its
STA.EVT flag, leaving STRANDED returns the odometer to its source (R248), and no manual demand outlasts READY (Table
8.7). -/
def State.enter (s : State) (st : UnitState) (cause : StateCause) : State :=
  let s1 := { s with unit := { s.unit with st := st }
                     power := { s.power with handed := s.power.handed && decide (st = UnitState.safe) }
                     motion := if st = UnitState.stranded then s.motion else s.motion.returnSource
                     sol := { s.sol with chans := s.sol.chans.map SolChan.clearManual }
                     pwm := { s.pwm with valves := s.pwm.valves.map Valve.clearManual } }
  let s2 := match st with
    | .stranded => s1.staEvt 0
    | .safe => s1.staEvt 2
    | _ => s1
  (s2.record 0x0C1 63 (BitVec.ofNat 24 (st.code + 8 * cause.code))).notice
    [.word "STATE", .word st.word, .word cause.word]

/-- The state lines are judged in: while an ANCHOR waits, the unit answers as in MOORED (R67, R211). -/
def State.judged (s : State) : UnitState := if s.power.anchorDue.isSome then .moored else s.unit.st

/-- The states in which an output can carry current (R22). -/
def UnitState.armed : UnitState → Bool
  | .ready => true
  | .underway => true
  | .stranded => true
  | _ => false

/-- The states in which crossings execute (R255). -/
def UnitState.casting : UnitState → Bool
  | .underway => true
  | .stranded => true
  | _ => false

/-- Every crossing the store holds is marked stale (R253). -/
def State.markStale (s : State) : State :=
  { s with engine := { s.engine with chans := s.engine.chans.map fun x =>
      { x with manifest := x.manifest.map fun y => { y with stale := true } } } }

/-- Whether any crossing held is stale (R203). -/
def State.anyStale (s : State) : Bool := s.engine.chans.toList.any fun x => x.manifest.any (·.stale)

end Sys2Proof.Machine
end

