-- ==== Sys2Proof/Machine/Operands.lean ====
section
/-! DEFINITION. The operands of commands: channels, banks, pairs, slices and valves by number (R20, R298 to R300), the
parts of State they name, the numbers of a line (R6, R172) and its channel lists (R174). -/
namespace Sys2Proof.Machine

open Sys2Proof

/-! ### Parts of State by number -/

/-- A vector with the entry `i` changed. -/
def upd {α : Type} {n : Nat} (v : Vector α n) (i : Fin n) (f : α → α) : Vector α n := v.set i.val (f v[i]) i.isLt

/-- A solenoid channel changes. -/
def State.modSol (s : State) (c : Fin 32) (f : SolChan → SolChan) : State :=
  { s with sol := { s.sol with chans := upd s.sol.chans c f } }

/-- A bank changes. -/
def State.modBank (s : State) (b : Fin 8) (f : Bank → Bank) : State :=
  { s with sol := { s.sol with banks := upd s.sol.banks b f } }

/-- The boost converter changes. -/
def State.modBoost (s : State) (f : Boost → Boost) : State := { s with sol := { s.sol with boost := f s.sol.boost } }

/-- A slice changes. -/
def State.modSlice (s : State) (i : Fin 12) (f : Slice → Slice) : State :=
  { s with pwm := { s.pwm with slices := upd s.pwm.slices i f } }

/-- A valve changes. -/
def State.modValve (s : State) (v : Fin 8) (f : Valve → Valve) : State :=
  { s with pwm := { s.pwm with valves := upd s.pwm.valves v f } }

/-- A channel of the crossing engine changes. -/
def State.modX (s : State) (c : Fin 40) (f : XChan → XChan) : State :=
  { s with engine := { s.engine with chans := upd s.engine.chans c f } }

/-- A loop changes. -/
def State.modLoop (s : State) (l : Fin 8) (f : Loop → Loop) : State :=
  { s with pilot := { s.pilot with loops := upd s.pilot.loops l f } }

/-- A trace bank changes. -/
def State.modTrace (s : State) (b : Fin 4) (f : Trace → Trace) : State :=
  { s with pilot := { s.pilot with traces := upd s.pilot.traces b f } }

/-- A safety pair changes. -/
def State.modPair (s : State) (p : Fin 4) (f : Pair → Pair) : State :=
  { s with safety := { s.safety with pairs := upd s.safety.pairs p f } }

/-- A pulse input changes. -/
def State.modFin (s : State) (n : Fin 8) (f : FinState → FinState) : State :=
  { s with motion := { s.motion with fins := upd s.motion.fins n f } }

/-- An encoder port changes. -/
def State.modEnc (s : State) (p : Fin 4) (f : EncState → EncState) : State :=
  { s with motion := { s.motion with encs := upd s.motion.encs p f } }

/-- The authorisation state of a source. -/
def Owner.of (o : Owner) : Source → AuthState
  | .chain => o.chain
  | .console => o.console

/-- The authorisation state of a source changes. -/
def State.modAuth (s : State) (src : Source) (f : AuthState → AuthState) : State :=
  match src with
  | .chain => { s with owner := { s.owner with chain := f s.owner.chain } }
  | .console => { s with owner := { s.owner with console := f s.owner.console } }

/-! ### Channels, banks and pairs (R20, R298 to R300) -/

/-- The bank of a solenoid channel. -/
def bankOf (c : Fin 32) : Fin 8 := ⟨c.val / 4, by omega⟩

/-- The channel `k` of a bank. -/
def chanOf (b : Fin 8) (k : Fin 4) : Fin 32 := ⟨4 * b.val + k.val, by omega⟩

/-- A solenoid channel as a channel of the unit. -/
def chS (c : Fin 32) : Fin 40 := ⟨c.val, by omega⟩

/-- A valve as a channel of the unit. -/
def chV (v : Fin 8) : Fin 40 := ⟨32 + v.val, by omega⟩

/-- The slice of a valve. -/
def sliceOf (v : Fin 8) : Fin 12 := ⟨v.val, by omega⟩

/-- A channel is a solenoid channel or a motorised valve (R20). -/
def chanKind (c : Fin 40) : Fin 32 ⊕ Fin 8 :=
  if h : c.val < 32 then .inl ⟨c.val, h⟩ else .inr ⟨c.val - 32, by omega⟩

/-- Whether the pair a solenoid channel stands in is in force (R298). -/
def State.paired (s : State) (c : Fin 32) : Bool :=
  bit (s.reg (Reg.bankCfg (c.val / 4))) (if c.val % 4 < 2 then 11 else 12)

/-- Whether a solenoid channel is the odd member of a pair in force. -/
def State.isOdd (s : State) (c : Fin 32) : Bool := s.paired c && decide (c.val % 2 = 1)

/-- Whether a solenoid channel leads a pair in force (R299). -/
def State.leads (s : State) (c : Fin 32) : Bool := s.paired c && decide (c.val % 2 = 0)

/-- The channel's partner in its pair. -/
def partner (c : Fin 32) : Fin 32 := ⟨2 * (c.val / 2) + (1 - c.val % 2), by omega⟩

/-- The channel that acts for a channel: the even member of a pair in force. -/
def State.leaderOf (s : State) (c : Fin 32) : Fin 32 := if s.isOdd c then partner c else c

/-- CHcc.IMEAS: the filtered current of a channel, for a pair the sum of its two members' (R289). -/
def State.filtered (s : State) (c : Fin 32) : BitVec 13 :=
  let own := (s.sol.chans[c]).imeas
  if s.leads c then BitVec.ofNat 13 (Nat.min 8191 (own.toNat + ((s.sol.chans[partner c]).imeas).toNat)) else own

/-- Whether channel `c` of the unit is the odd member of a pair in force. -/
def State.oddChan (s : State) (c : Fin 40) : Bool :=
  match chanKind c with
  | .inl k => s.isOdd k
  | .inr _ => false

/-- The power domain of a channel: PD000 to PD031, or its predriver (R20). -/
def chanDomain (c : Fin 40) : Nat := if c.val < 32 then c.val else 48 + (c.val - 32)

/-- The domain of the lane that projects a channel (R255). -/
def laneDomain (c : Fin 40) : Nat := 97 + c.val / 10

/-! ### Fields of the configuration -/

/-- The modes of a predriver (R308). -/
inductive ValveMode where
  | off
  | valve
  | position
  | drive
deriving DecidableEq, Repr

/-- MVv.CFG.MODE in force. -/
def State.valveMode (s : State) (v : Fin 8) : ValveMode :=
  match fld (s.reg (Reg.mvCfg v)) 0 2 with
  | 0 => .off
  | 1 => .valve
  | 2 => .position
  | _ => .drive

/-- The slice that drives a predriver: its own, or the free slice it names in DRIVE mode (R308). -/
def State.driver (s : State) (v : Fin 8) : Fin 12 :=
  match s.valveMode v with
  | .drive => ⟨8 + fld (s.reg (Reg.mvCfg v)) 2 2 % 4, by omega⟩
  | _ => sliceOf v

/-- Whether the limit input of an end is enabled (R326). -/
def State.limEnabled (s : State) (v : Fin 8) (e : ValveEnd) : Bool :=
  bit (s.reg (Reg.mvCfg v)) (match e with | .open_ => 6 | .closed => 7)

/-- Whether the enabled limit input of an end is asserted (R326). -/
def State.limAsserted (s : State) (v : Fin 8) (e : ValveEnd) : Bool :=
  s.limEnabled v e &&
    match e with
    | .open_ => xor (s.pwm.valves[v]).limO (bit (s.reg (Reg.mvCfg v)) 8)
    | .closed => xor (s.pwm.valves[v]).limC (bit (s.reg (Reg.mvCfg v)) 9)

/-- MVv.CFG.HOMEEND in force. -/
def State.homeEnd (s : State) (v : Fin 8) : ValveEnd :=
  if bit (s.reg (Reg.mvCfg v)) 10 then .open_ else .closed

/-- The action of PWR.HO_ACT for a valve: an end, or none for COAST. -/
def hoActOf (w : Word) (v : Fin 8) : Option ValveEnd :=
  match fld w (2 * v.val) 2 with
  | 1 => some .open_
  | 2 => some .closed
  | _ => none

/-- The functions of a safety pair (Table 14.3). -/
inductive PairFunc where
  | generic
  | stop
  | fold
  | presence
deriving DecidableEq, Repr

/-- SFPp.CFG.FUNC of a configuration word. -/
def funcOf (w : Word) : PairFunc :=
  match fld w 1 2 with
  | 0 => .generic
  | 1 => .stop
  | 2 => .fold
  | _ => .presence

/-- SFPp.CFG.FUNC in force. -/
def State.pairFunc (s : State) (p : Fin 4) : PairFunc := funcOf (s.reg (Reg.sfpCfg p))

/-- Whether a channel's bit stands in a pair's scope masks; an odd member's bit is ignored, the even member's covers
both (R363). -/
def State.inMask (s : State) (p : Fin 4) (c : Fin 40) : Bool :=
  let m := match chanKind c with
    | .inl k => (s.leaderOf k).val
    | .inr _ => c.val
  if m < 24 then bit (s.reg (Reg.sfpMask0 p)) m else bit (s.reg (Reg.sfpMask1 p)) (m - 24)

/-- Whether a channel lies in a pair's scope (R363). -/
def State.inScope (s : State) (p : Fin 4) (c : Fin 40) : Bool :=
  match s.pairFunc p with
  | .generic => false
  | .stop => true
  | _ => s.inMask p c

/-- Whether the filter of an input, N samples of 2^DIV / 60 MHz as its word gives them, cannot have accepted an edge so soon after the last
one: a level that lasts less than N samples is never accepted (R221, R326). -/
def filterBars (cfg : Word) (last : Option Nat) (clk : Nat) : Bool :=
  match last with
  | some t => decide (60 * (clk - t + 1) ≤ fld cfg 0 8 * 2 ^ fld cfg 8 4)
  | none => false

/-- The bits of one field of CHcc.PROF. -/
def State.profBit (s : State) (c : Fin 32) (k : Nat) : Bool := bit (s.reg (Reg.prof c)) k

/-- The current that the chopper of a channel regulates: its coil's, for a pair the sum of its two members' (R282, R299). -/
def State.coilNow (s : State) (c : Fin 32) : Nat :=
  (s.sol.chans[c]).coil + if s.leads c then (s.sol.chans[partner c]).coil else 0

/-- CHcc.DIPBLANK in force, in µs (R290). -/
def State.dipBlank (s : State) (c : Fin 32) : Nat := 100 * fld (s.reg (0x1100 + 8 * c.val)) 8 10

/-- CHcc.DIPTH in force, in mA (R290). -/
def State.dipTh (s : State) (c : Fin 32) : Nat := 10 * fld (s.reg (0x1100 + 8 * c.val)) 0 8

/-- CHcc.TBOOST, TPEAK, PKPOST and TOFF in force, and CHcc.LAT, LAG and CLAT. -/
def State.tboost (s : State) (c : Fin 32) : Nat := s.regN (Reg.tboost c)
/-- CHcc.TPEAK in force. -/
def State.tpeak (s : State) (c : Fin 32) : Nat := s.regN (Reg.tpeak c)
/-- CHcc.PKPOST in force. -/
def State.pkpost (s : State) (c : Fin 32) : Nat := s.regN (Reg.pkpost c)
/-- CHcc.TOFF in force. -/
def State.toff (s : State) (c : Fin 32) : Nat := s.regN (Reg.toff c)
/-- CHcc.LAT in force. -/
def State.lat (s : State) (c : Fin 40) : Nat := s.regN (Reg.lat c)
/-- CHcc.CLAT in force. -/
def State.clat (s : State) (c : Fin 40) : Nat := s.regN (Reg.clat c)
/-- A bit of CHcc.XCFG in force. -/
def State.xcfgBit (s : State) (c : Fin 40) (k : Nat) : Bool := bit (s.reg (Reg.xcfg c)) k
/-- CHcc.XCFG.DEPTH in force (R249). -/
def State.depth (s : State) (c : Fin 40) : Nat := fld (s.reg (Reg.xcfg c)) 4 11

/-- Chain time as a number of microseconds. -/
def State.now (s : State) : Nat := s.time.toNat

/-- Whether chain time has reached `t`: both within the half range of 48 bits. -/
def State.reached (s : State) (t : ChainTime) : Bool := decide ((s.time - t).toNat < 2 ^ 47)

/-- Microseconds of chain time from `t` to now. -/
def State.since (s : State) (t : ChainTime) : Nat := (s.time - t).toNat

end Sys2Proof.Machine
end

