-- ==== Sys2Proof/Machine/Bridge.lean ====
section
/-! DEFINITION. The bridge of a predriver (chapter 12): the gates its state and the carrier of its slice command, with the dead
times, the bootstrap refresh and the delays of R316 to R321, and the change of a bridge from one state to another. Instants are ticks
of 1/240 µs. -/
namespace Sys2Proof.Machine

open Sys2Proof

/-- Both low sides on (Table 12.4). -/
def Gates.braked : Gates := { la := true, lb := true }

/-- The high side of a half-bridge. -/
def Gates.high (g : Gates) : Half → Bool
  | .a => g.ha
  | .b => g.hb

/-- The low side of a half-bridge. -/
def Gates.low (g : Gates) : Half → Bool
  | .a => g.la
  | .b => g.lb

/-- One half switches and the other holds its low side as given (Table 12.4, R316). -/
def Gates.drive (h : Half) (high low static : Bool) : Gates :=
  match h with
  | .a => { ha := high, la := low, lb := static }
  | .b => { hb := high, lb := low, la := static }

/-- The other half-bridge. -/
def otherHalf : Half → Half
  | .a => .b
  | .b => .a

/-- The tick at which the high side of a half was last commanded off. -/
def Valve.offAt (y : Valve) : Half → Nat
  | .a => y.offA
  | .b => y.offB

/-- The tick at which the last refresh of a half began. -/
def Valve.pulse (y : Valve) : Half → Option Nat
  | .a => y.pulseA
  | .b => y.pulseB

/-- When the low side of a half was last on for 400 ns, in `clk`. -/
def Valve.lowAt (y : Valve) : Half → Nat
  | .a => y.lowAtA
  | .b => y.lowAtB

/-- The half-bridge that switches (R316). -/
def State.switchingHalf (s : State) (v : Fin 8) : Half :=
  let rev := bit (s.reg (Reg.mvCfg v)) 5
  let towardsOpen := match (s.pwm.valves[v]).run with
    | some r => decide (r.target = .open_)
    | none => true
  if xor towardsOpen rev then .a else .b

/-- The dead time of a predriver, in ticks (R317). -/
def State.deadTicks (s : State) (v : Fin 8) : Nat := 24 * (fld (s.reg (Reg.mvCfg v)) 11 4 + 1)

/-- 1.7 µs in ticks: what a forced brake waits after the high side was commanded off (R321). -/
def brakeTicks : Nat := 408

/-- Where the on-phase of the present period begins for a predriver: with the period, or where the bridge came to its state or had charged
its bootstrap within it (R318). -/
def State.onBegin (s : State) (v : Fin 8) : Nat :=
  let y := s.pwm.valves[v]
  Nat.max (s.pwm.slices[s.driver v]).startTick (Nat.max y.since (240 * y.chargeEnd))

/-- Where the on-phase of the present period ends for a predriver: with that of the period, or of the first on-phase where the bootstrap was
charged within it (R318). -/
def State.onEnd (s : State) (v : Fin 8) : Nat :=
  let w := s.pwm.slices[s.driver v]
  let y := s.pwm.valves[v]
  match y.firstEnd with
  | some e => if w.startTick < 240 * y.chargeEnd then e else w.startTick + w.ton
  | none => w.startTick + w.ton

/-- Whether the on-phase outlasts one dead time and so turns the high side on (R317). -/
def State.onChanges (s : State) (v : Fin 8) : Bool := decide (s.deadTicks v < s.onEnd v - s.onBegin v)

/-- Whether the high side was on as the period began and stayed on. -/
def State.highKept (s : State) (v : Fin 8) : Bool :=
  (s.pwm.valves[v]).highEnd && decide (s.onBegin v = (s.pwm.slices[s.driver v]).startTick)

/-- The tick at which the high side is commanded off in this period: the end of the on-phase, or of the period where the off-phase does not
outlast one dead time (R317). -/
def State.highOff (s : State) (v : Fin 8) : Nat :=
  let w := s.pwm.slices[s.driver v]
  if s.deadTicks v < w.endTick - s.onEnd v then s.onEnd v else w.endTick

/-- Whether a running carrier has the high side of the switching half on (R317). -/
def State.carrierHigh (s : State) (v : Fin 8) (t : Nat) : Bool :=
  if t < (s.pwm.slices[s.driver v]).startTick then (s.pwm.valves[v]).highEnd
  else decide (t < s.highOff v) && (s.highKept v || s.onChanges v && decide (s.onBegin v + s.deadTicks v ≤ t))

/-- Whether a running carrier has the low side of the switching half on: where the high side is not, but for the dead times (R317). -/
def State.carrierLow (s : State) (v : Fin 8) (t : Nat) : Bool :=
  let before := decide (t < (s.pwm.slices[s.driver v]).startTick)
  let turningOn := s.onChanges v && decide (s.onBegin v ≤ t) && decide (t < s.onBegin v + s.deadTicks v)
  let turningOff := (s.onChanges v || s.highKept v) && decide (s.highOff v ≤ t) && decide (t < s.highOff v + s.deadTicks v)
  !s.carrierHigh v t && (before || !turningOn && !turningOff)

/-- Whether a low side can be on in a bridge state that holds it on: it was on as the state began, or `delay` ticks have passed since the
high side of its half was commanded off (R317, R321). -/
def Valve.lowHeld (y : Valve) (h : Half) (delay t : Nat) : Bool := y.before.low h || decide (y.offAt h + delay ≤ t)

/-- Both low sides held on, each after its delay. -/
def Valve.brakes (y : Valve) (delay t : Nat) : Gates := { la := y.lowHeld .a delay t, lb := y.lowHeld .b delay t }

/-- The gates while the carrier drives: the switching half with its refresh, the other half's low side on unless HALF keeps it off
(Table 12.4, R316 to R318). -/
def State.carrierGates (s : State) (v : Fin 8) (half : Bool) (t : Nat) : Gates :=
  let y := s.pwm.valves[v]
  let h := s.switchingHalf v
  let dt := s.deadTicks v
  let static := !half && y.lowHeld (otherHalf h) dt t
  match y.pulse h with
  | some p =>
    if s.carrierHigh v t && decide (t < p + 2 * dt + 96) then
      Gates.drive h false (decide (p + dt ≤ t) && decide (t < p + dt + 96)) static
    else Gates.drive h (s.carrierHigh v t) (s.carrierLow v t) static
  | none => Gates.drive h (s.carrierHigh v t) (s.carrierLow v t) static

/-- The gates a predriver's bridge state commands at a tick (Table 12.4). A slice that is disabled drives none of them, and a low side that
was on turns off one dead time later (R319); a safe level, a demand that stands above the carrier, holds without it (DEDUCED, log 85). -/
def State.bridgeGates (s : State) (v : Fin 8) (t : Nat) : Gates :=
  let y := s.pwm.valves[v]
  let dt := s.deadTicks v
  if y.bridge = .safeLevel then (if bit (s.reg (Reg.pwmCfg (s.driver v))) 4 then y.brakes brakeTicks t else {})
  else if !(s.pwm.slices[s.driver v]).running then
    { la := y.before.la && decide (t < y.since + dt), lb := y.before.lb && decide (t < y.since + dt) }
  else match y.bridge with
    | .brake => y.brakes dt t
    | .running => s.carrierGates v false t
    | .freeSlice => s.carrierGates v (bit (s.reg (Reg.mvCfg v)) 4) t
    | _ => {}

/-- The gates of a predriver at a tick: a supply of the gate drive or a bootstrap that is too low turns gates off (R400, R406). -/
def State.gatesAt (s : State) (v : Fin 8) (t : Nat) : Gates :=
  let g := s.bridgeGates v t
  if s.power.vgdLow then {}
  else { g with ha := g.ha && !(s.pwm.valves[v]).bootLowA, hb := g.hb && !(s.pwm.valves[v]).bootLowB }

/-- The gates of a predriver as the present microsecond begins. -/
def State.gates (s : State) (v : Fin 8) : Gates := s.gatesAt v (240 * s.clk)

/-- Whether the carrier drives a bridge. -/
def State.carried (s : State) (v : Fin 8) : Bool :=
  (s.pwm.slices[s.driver v]).running &&
    match (s.pwm.valves[v]).bridge with
    | .running => true
    | .freeSlice => true
    | _ => false

/-- The tick at which the high side of a half was last commanded off, seen at a tick. -/
def State.lastOff (s : State) (v : Fin 8) (h : Half) (t : Nat) : Nat :=
  let old := (s.pwm.valves[v]).offAt h
  if !s.carried v || decide (h ≠ s.switchingHalf v) then old
  else if s.carrierHigh v t then t
  else if (s.onChanges v || s.highKept v) && decide (s.highOff v ≤ t) then s.highOff v
  else old

/-- What a predriver keeps as its bridge turns to another state at a tick: the gates as they are, when each high side went off, and the low
sides that were on until then. -/
def State.markGates (s : State) (v : Fin 8) (t : Nat) (y : Valve) : Valve :=
  let g := s.gatesAt v t
  { y with before := g, since := t, offA := s.lastOff v .a t, offB := s.lastOff v .b t, highEnd := false
           pulseA := none, pulseB := none
           lowAtA := if g.la then Nat.max y.lowAtA (t / 240) else y.lowAtA
           lowAtB := if g.lb then Nat.max y.lowAtB (t / 240) else y.lowAtB }

/-- The end a run drives to. -/
def Valve.heads (y : Valve) : Option ValveEnd := y.run.map (·.target)

/-- A valve changes; where that turns its bridge or its direction, the dead times and delays run from now (R317, R321). -/
def State.modBridge (s : State) (v : Fin 8) (f : Valve → Valve) : State :=
  let y := s.pwm.valves[v]
  if (f y).bridge = y.bridge ∧ (f y).heads = y.heads then s.modValve v f
  else s.modValve v fun y => s.markGates v (240 * s.clk) (f y)

/-- The period that ends leaves a predriver with its high side on or off (R317). -/
def State.endPeriodGates (s : State) (v : Fin 8) (tick : Nat) : State :=
  if !s.carried v then s
  else
    let t := tick - 1
    let h := s.switchingHalf v
    s.modValve v fun y =>
      { y with highEnd := s.carrierHigh v t
               offA := if h = .a then s.lastOff v .a t else y.offA
               offB := if h = .b then s.lastOff v .b t else y.offB }

end Sys2Proof.Machine
end

