-- ==== Sys2Proof/Machine/Drive.lean ====
section
/-! DEFINITION. The demand order (R214, R215, Table 8.7) on solenoid channels, valve predrivers and slices, and what
follows from a change of demand: requests for boost (R284, R293), OFF phases (R292, R301), runs (R324, R325), limit
faults (R327), and the endings of current crossings (R275). -/
namespace Sys2Proof.Machine

open Sys2Proof

/-! ### What every demand rests on -/

/-- Whether every enabled output is held off by the keeper or a reset (level 1): no core running, a reset asserted, or
VBAT above 36 V (R22, R36, R81). -/
def State.keeperHolds (s : State) : Bool :=
  decide (s.phase ≠ .running) || s.power.vbatHigh

/-- Whether the keeper has released outputs whose domain is on (R22, R202). -/
def State.released (s : State) : Bool := !s.keeperHolds && s.unit.st.armed

/-- Whether the handover has come to its steps 2 to 5: it holds level 2 of the demand order (Tables 3.7, 8.7). -/
def State.handoverActs (s : State) : Bool :=
  match s.power.handover with
  | some h => h.acting
  | none => false

/-- How channel A of a pair reads: stop where true (R361). -/
def State.readsStopA (s : State) (p : Fin 4) : Bool := !(s.safety.pairs[p]).levelA

/-- How channel B of a pair reads: stop where true (R361). -/
def State.readsStopB (s : State) (p : Fin 4) : Bool :=
  if bit (s.reg (Reg.sfpCfg p)) 3 then (s.safety.pairs[p]).levelB else !(s.safety.pairs[p]).levelB

/-- The effective state of a running pair is stop (R362). -/
def State.effStop (s : State) (p : Fin 4) : Bool :=
  (s.safety.pairs[p]).active && (s.readsStopA p || s.readsStopB p)

/-- Whether a pair drives the kill tree on its scope (R364, R366, R370). -/
def State.pairDrives (s : State) (p : Fin 4) : Bool :=
  let q := s.safety.pairs[p]
  match s.pairFunc p with
  | .generic => false
  | .fold => s.effStop p || q.discrep
  | _ => q.latch || q.discrep

/-- The four pairs. -/
def allPairs : List (Fin 4) := [0, 1, 2, 3]

/-- Whether the kill tree acts on a channel (R370). -/
def State.killed (s : State) (c : Fin 40) : Bool :=
  s.unit.kill || allPairs.any fun p => s.pairDrives p && s.inScope p c

/-- Whether the STOP latch of a pair with function STOP is set (R202, R205). -/
def State.stopLatched (s : State) : Bool :=
  allPairs.any fun p => decide (s.pairFunc p = .stop) && ((s.safety.pairs[p]).latch || (s.safety.pairs[p]).discrep)

/-- The STOP flag of STA.STATE: the STOP latch of some pair with function STOP or PRESENCE is set (R364, Table 8.8). -/
def State.stopFlag (s : State) : Bool :=
  allPairs.any fun p => (decide (s.pairFunc p = .stop) || decide (s.pairFunc p = .presence)) && (s.safety.pairs[p]).latch

/-- Whether a channel is held by SHUT; a pair's hold stands on the even member (R216, R300). -/
def State.held (s : State) (c : Fin 40) : Bool := s.unit.shut.getLsbD c.val

/-- Whether the group fault of a slice is latched (R320, R321). -/
def State.groupFault (s : State) (i : Fin 12) : Bool := s.pwm.fltLatch.getLsbD (i.val / 4)

/-! ### Solenoid demands -/

/-- The demand in force on a solenoid channel: off, with fast decay or with PROF.ODEC; on; or a pulse with frequency,
phase and duty. -/
inductive SolDemand where
  | off (fast : Bool)
  | on
  | pulse (f p : Nat) (d : Frac)
deriving DecidableEq, Repr

/-- A scheduled level as a demand; a DUTY pulses at CHcc.PULSE with its duty as turn compensation last left it (R278,
R296). -/
def State.levelDemand (s : State) (c : Fin 32) : Level → SolDemand
  | .closed => .off false
  | .open_ => .on
  | .duty d => .pulse (fld (s.reg (Reg.pulse c)) 0 6) (fld (s.reg (Reg.pulse c)) 6 7)
      (((s.sol.chans[c]).applied).getD { num := d, den := 1 })

/-- The level 7 demand of a solenoid channel (R302, R296). -/
def SolManual.demand : SolManual → SolDemand
  | .none => .off false
  | .on => .on
  | .pulse q => .pulse q.f q.p { num := q.d, den := 1 }

/-- The highest demand in force on a solenoid channel (Table 8.7), with the decay its end starts (Table 11.9). -/
def State.solDemand (s : State) (c : Fin 32) : SolDemand :=
  if s.keeperHolds || !s.unit.st.armed || !s.domainOn c.val then .off true
  else if s.handoverActs then .off true
  else if s.killed (chS c) then .off true
  else if (s.sol.chans[c]).fault ≠ 0 then .off true
  else if s.held (chS c) then .off true
  else match s.unit.st with
    | .ready => (s.sol.chans[c]).manual.demand
    | _ =>
      if s.unit.limitAction then .off true
      else
        let x := s.engine.chans[chS c]
        if x.castNext then .off false else s.levelDemand c x.level

/-- The pulse period for a frequency, in µs, rounded to the nearest (R294). -/
def pulsePeriod (f : Nat) : Nat := (2 * 1000000 + f) / (2 * f)

/-- The offset of the grid, in µs, rounded to the nearest (R294). -/
def pulseOffset (p period : Nat) : Nat := (2 * p * period + 100) / 200

/-- CHcc.LATL in µs (R270): L8 div 8 for a solenoid, CHcc.LAT for a valve. -/
def State.latl (s : State) (c : Fin 40) : Nat :=
  if c.val < 32 then (s.engine.chans[c]).l8 / 8 else s.lat c

/-- The on-interval of a pulse, in µs, with DCOMP and the clamp to the period (R295). -/
def State.onInterval (s : State) (c : Fin 32) (f : Nat) (d : Frac) : Nat :=
  let period := pulsePeriod f
  let base := roundDiv (d.num * period) (d.den * 100)
  let comp : Int := if bit (s.reg (Reg.pulse c)) 13 then (s.latl (chS c) : Int) - s.clat (chS c) else 0
  (clampZ 0 period (base + comp)).toNat

/-- Whether a duty is 100 % or more. -/
def Frac.isFull (d : Frac) : Bool := decide ((100 * d.den : Int) ≤ d.num)

/-! ### The arbiter and the phases -/

/-- CHcc.DIAG flag `k` of a channel is raised, with its record and notice (R303). -/
def solDiagWord : Nat → String
  | 0 => "OL"
  | 1 => "OLOFF"
  | 2 => "SB"
  | 3 => "SG"
  | 4 => "NOLAND"
  | 5 => "BNR"
  | 6 => "OFFWAIT"
  | _ => "PSKIP"

/-- A channel diagnostic: flag, record and notice (R303, Table 15.4). -/
def State.solDiag (s : State) (c : Fin 32) (k : Nat) : State :=
  ((s.modSol c fun ch => { ch with diag := raise ch.diag k }).record (0x181 + k) c.val 0).notice
    [.word "SOL", .num c.val, .word (solDiagWord k)]

/-- A channel is IDLE from now on (R281). -/
def SolChan.rest (ch : SolChan) (clk : Nat) : SolChan := { ch with phase := .idle, idleClk := clk }

/-- A channel leaves its bank's queue. -/
def State.dequeue (s : State) (c : Fin 32) : State :=
  s.modBank (bankOf c) fun b => { b with queue := b.queue.filter fun x => decide (x ≠ c) }

/-- The channel's hold of the arbiter ends and the VBST path opens (R281, R285). -/
def State.releaseArbiter (s : State) (c : Fin 32) : State :=
  s.modBank (bankOf c) fun b =>
    if b.holder = some c then { b with holder := none, vbst := false, waitUntil := none } else b

/-- Whether the crossing that causes an opening forbids it to teach: the one that set the level which the channel opens to (R218, R269). -/
def State.noLearn (s : State) (c : Fin 32) : Bool := s.unit.st.casting && (s.engine.chans[chS c]).muteLevel

/-- A channel's place in its bank's queue: behind every earlier request, and behind those of the same moment with a lower channel number
(R284; a moment is a microsecond, log 86). -/
def State.joinQueue (s : State) (c : Fin 32) (queue : List (Fin 32)) : List (Fin 32) :=
  let ahead (x : Fin 32) : Bool := decide ((s.sol.chans[x]).reqClk < s.clk) || decide (x < c)
  queue.takeWhile ahead ++ c :: queue.dropWhile ahead

/-- A channel requests boost (R284); `teach` says whether its opening may still teach (R269). -/
def State.requestBoost (s : State) (c : Fin 32) (teach : Bool) : State :=
  (s.modSol c fun ch => { ch with phase := .queued, teach := teach && !s.noLearn c, dip := none, reqClk := s.clk }).modBank (bankOf c)
    fun b => if b.queue.contains c || b.holder = some c then b else { b with queue := s.joinQueue c b.queue }

/-- An on demand arises on a channel (R284, R293). -/
def State.onDemand (s : State) (c : Fin 32) : State :=
  let ch := s.sol.chans[c]
  let early := match ch.offAt with
    | some t => decide (s.since t < s.toff c)
    | none => false
  match ch.phase with
  | .idle =>
    if early then
      if s.profBit c 4 then s.requestBoost c false
      else (s.modSol c fun x => { x with phase := .offwait }).solDiag c 6
    else s.requestBoost c (!ch.decaying)
  | .off =>
    if s.profBit c 4 then s.requestBoost c false
    else (s.modSol c fun x => { x with phase := .offwait }).solDiag c 6
  | _ => s

/-- The channel starts OFF with a decay (R292). -/
def State.startOff (s : State) (c : Fin 32) (d : Decay) : State :=
  s.modSol c fun ch => { ch with phase := .off, offAt := some s.time, decaying := true, decay := d, lowSide := false }

/-- An on demand of a channel ends (R285, R292, R301). -/
def State.offDemand (s : State) (c : Fin 32) (fast : Bool) : State :=
  let d := if fast || s.profBit c 3 then Decay.fast else Decay.slow
  let ch := s.sol.chans[c]
  match ch.phase with
  | .queued => (s.dequeue c).modSol c fun x => { x.rest s.clk with decay := if fast then .fast else x.decay }
  | .bnrwait => (s.releaseArbiter c).modSol c fun x => { x.rest s.clk with decay := if fast then .fast else x.decay }
  | .offwait => s.modSol c fun x =>
      if x.decaying then { x with phase := .off, decay := if fast then .fast else x.decay } else x.rest s.clk
  | .boost => (s.releaseArbiter c).startOff c d
  | .peak => s.startOff c d
  | .hold => s.startOff c d
  | .off => s.modSol c fun x => { x with decay := if fast then .fast else x.decay }
  | .idle => s.modSol c fun x => if x.decaying && fast then { x with decay := .fast } else x

/-- The pulse of a channel starts an on-interval now (R263, R284, R295); a duty of 100 % has no end, and an interval clamped to 0 ends where
it starts and is skipped (R296). -/
def State.startInterval (s : State) (c : Fin 32) (f p : Nat) (d : Frac) : State :=
  let period := pulsePeriod f
  let n := s.onInterval c f d
  let s1 := s.modSol c fun ch =>
    { ch with
      lastStart := some s.time
      full := d.isFull
      onUntil := if d.isFull || decide (n = 0) then none else some (after s.time n)
      grid := some (period, pulseOffset p period) }
  if n = 0 ∧ !d.isFull then s1.solDiag c 7 else s1

/-- The channel takes the highest demand in force (R214, R215); a pulse demand of 100 % holds it on at once (R295). -/
def State.applySol (s : State) (c : Fin 32) : State :=
  if s.isOdd c then s
  else match s.solDemand c with
  | .off fast =>
    (s.modSol c fun ch => { ch with want := false, pulsing := false, onUntil := none, full := false, grid := none }).offDemand
      c fast
  | .on =>
    let s1 := s.modSol c fun ch =>
      { ch with want := true, pulsing := false, onUntil := none, full := false, grid := none }
    if (s.sol.chans[c]).want then s1 else s1.onDemand c
  | .pulse f p d =>
    let s0 := if d.isFull && !(s.sol.chans[c]).pulsing && (s.sol.chans[c]).onUntil.isNone then s.startInterval c f p d else s
    let want := (s0.sol.chans[c]).full || (s0.sol.chans[c]).onUntil.isSome
    let s1 := s0.modSol c fun ch => { ch with want := want, pulsing := true }
    if want then (if (s.sol.chans[c]).want then s1 else s1.onDemand c) else s1.offDemand c false

/-- Every solenoid channel, in ascending order (R284). -/
def allSol : List (Fin 32) := List.finRange 32

/-- Every bank. -/
def allBanks : List (Fin 8) := List.finRange 8

/-- Every valve. -/
def allValves : List (Fin 8) := List.finRange 8

/-- Every slice. -/
def allSlices : List (Fin 12) := List.finRange 12

/-- Every channel of the unit. -/
def allChans : List (Fin 40) := List.finRange 40

/-! ### Endings of current crossings -/

/-- The words that name why a current crossing ended (R273, R275). -/
inductive EndCause where
  | recallVerb
  | halt
  | kill
  | stop
  | fault
  | flt
  | shut
  | limit
  | handover
deriving DecidableEq, Repr

/-- The cause word in the notice. -/
def EndCause.word : EndCause → String
  | .recallVerb => "RECALL"
  | .halt => "HALT"
  | .kill => "KILL"
  | .stop => "STOP"
  | .fault => "FAULT"
  | .flt => "FLT"
  | .shut => "SHUT"
  | .limit => "LIMIT"
  | .handover => "HANDOVER"

/-- The level an action schedules. -/
def Crossing.level (x : Crossing) : Level :=
  match x.action with
  | .open_ => .open_
  | .close => .closed
  | .duty => .duty x.duty

/-- How long the cast action of a channel has energised its coil or bridge, in µs: from BOOST start or travel start, 0
for a CLOSE or before ts (R273). -/
def State.energised (s : State) (c : Fin 40) (k : Current) : Nat :=
  if k.stage = .decided ∨ k.x.action = .close then 0
  else match chanKind c with
    | .inl i =>
      let ch := s.sol.chans[i]
      match ch.phase with
      | .boost => if (ch.boostAt - k.ts).toNat < 2 ^ 47 then s.since ch.boostAt else 0
      | .peak => if (ch.boostAt - k.ts).toNat < 2 ^ 47 then s.since ch.boostAt else 0
      | .hold => if (ch.boostAt - k.ts).toNat < 2 ^ 47 then s.since ch.boostAt else 0
      | _ => 0
    | .inr v =>
      match (s.pwm.valves[v]).run with
      | some r => if r.why = .crossing then s.clk - r.startClk else 0
      | none => s.since k.ts

/-- What is told of a current crossing that ends in stage DECIDED or CAST: flag, counter, record and notice (R273); a reverse
cast is no crossing of its own (R274). -/
def State.tellEnd (s : State) (c : Fin 40) (k : Current) (e : Nat) (cause : EndCause) : State :=
  if k.reverse then s
  else
  let s1 := { s with engine := { s.engine with evt := raise s.engine.evt 3, eRcast := satInc s.engine.eRcast } }
  (s1.record 0x144 c.val k.x.ident (some (BitVec.ofNat 24 e))).notice
    [.word "RECALLED", .word "AFTER", .word "CAST", .num c.val, .num k.x.ident.toNat, .num e, .word cause.word]

/-- Whether an ending returns the scheduled level to the one before the cast: a recall, a limit (R273, R275). -/
def EndCause.takesBack : EndCause → Bool
  | .recallVerb => true
  | .limit => true
  | _ => false

/-- A crossing whose ts is still to come ends: its action has not become the scheduled level and does not (R263, R275). -/
def State.endDecided (s : State) (c : Fin 40) (k : Current) (cause : EndCause) : State :=
  (s.modX c fun x => { x with decided := x.decided.erase k }).tellEnd c k 0 cause

/-- The current crossing of a channel, cast and not landed, ends (R273, R275); a valve's completes its travel on HALT. -/
def State.endCast (s : State) (c : Fin 40) (cause : EndCause) : State :=
  match (s.engine.chans[c]).cur with
  | none => s
  | some k =>
    if k.stage = .landed ∨ (cause = .halt ∧ 32 ≤ c.val) then s
    else
      let e := s.energised c k
      (s.modX c fun x =>
        { x with
          cur := none
          level := if cause.takesBack then k.before else x.level
          heldLevel := if cause.takesBack then k.beforeHeld else x.heldLevel
          muteLevel := if cause.takesBack then k.beforeMute else x.muteLevel }).tellEnd c k e cause

/-- A channel's current crossings in stage CAST and DECIDED end with a cause (R275). -/
def State.endCrossing (s : State) (c : Fin 40) (cause : EndCause) : State :=
  (s.engine.chans[c]).decided.foldl (fun t k => t.endDecided c k cause) (s.endCast c cause)

/-- Every current crossing in stage DECIDED or CAST ends with a cause. -/
def State.endAll (s : State) (cause : EndCause) : State := allChans.foldl (fun t c => t.endCrossing c cause) s

/-- A channel's scheduled level is set to closed, as by no cast (R275, R364). -/
def XChan.closeLevel (x : XChan) : XChan :=
  { x with level := .closed, sched := false, heldLevel := false, muteLevel := false, castNext := false }

/-- Every scheduled level is set to closed (R275). -/
def State.closeLevels (s : State) : State :=
  { s with engine := { s.engine with chans := s.engine.chans.map XChan.closeLevel } }

/-! ### Runs of the motorised valves -/

/-- Whether the valve's level 7 and 8 demands are those of a motorised valve (R308). -/
def ValveMode.runs : ValveMode → Bool
  | .valve => true
  | .position => true
  | _ => false

/-- The end a handover runs a valve to in its step 5 (R70, R72): none for COAST, in DRYDOCK, without HLDEN as in force, which R69 does not
latch (DESIGN CHOICE, log 82), and for a valve with a limit fault latched, which stays at level 4 ("Where things meet" of chapter 12). -/
def State.handoverEnd (s : State) (v : Fin 8) : Option ValveEnd :=
  match s.power.handover with
  | some h =>
    if !h.acting || h.inDrydock || !bit (s.reg Reg.hldCfg) 0 || !(s.valveMode v).runs || decide ((s.pwm.valves[v]).fault ≠ 0) then none
    else hoActOf h.hoAct v
  | none => none

/-- Whether a handover leaves a valve at level 4 that it would else run: its run has ended with a limit fault, or one was latched as the handover
came to its steps, in a state in which the keeper had released it (R22, R70; "Where things meet" of chapter 12). One it would not run, and one whose
run has ended otherwise, is released (Table 3.7, R72). -/
def State.handoverFaulted (s : State) (v : Fin 8) : Bool :=
  match s.power.handover with
  | some h =>
    !h.inDrydock && bit (s.reg Reg.hldCfg) 0 && (s.valveMode v).runs && (hoActOf h.hoAct v).isSome
      && h.faulted.getLsbD v.val && (s.unit.st.armed || (s.pwm.valves[v]).brakeUntil.isSome)
  | none => false

/-- The highest demand in force on a predriver (Tables 8.7 and 12.6). The kill tree keeps a released predriver at its
safe level after the unit has left the states of R22 (R323, Table 14.5). A group fault that is cleared holds the safe level until the slice's
next period start (R322). -/
def State.valveDemand (s : State) (v : Fin 8) : ValveDemand :=
  let y := s.pwm.valves[v]
  let mode := s.valveMode v
  if mode = .off || s.keeperHolds || !s.domainOn (48 + v.val) then .locked
  else match s.handoverEnd v with
  | some e => .run e .handover
  | none =>
    if s.killed (chV v) && (s.unit.st.armed || decide (y.demand = .safe)) then .safe
    else if s.handoverActs then (if s.handoverFaulted v then .fault else .coast)
    else if !s.unit.st.armed then .locked
    else if y.fault ≠ 0 && mode.runs then .fault
    else if s.groupFault (s.driver v) || ((s.pwm.slices[s.driver v]).forced && (s.pwm.slices[s.driver v]).running) then .safe
    else if s.held (chV v) then (if mode.runs then .run .closed .shut else .coast)
    else if !mode.runs then
      if (s.pwm.slices[s.driver v]).running then .free else .coast
    else match s.unit.st with
      | .ready =>
        match y.manual with
        | .none => .idle
        | .toEnd e => .run e .manual
        | .drive d => if d = 0 then .coast else .drive d
      | _ =>
        if s.unit.limitAction then
          match hoActOf (s.reg Reg.hoAct) v with
          | some e => .run e .limit
          | none => .coast
        else if mode = .position then .position
        else
          let x := s.engine.chans[chV v]
          if x.castNext || !x.sched then .idle
          else match x.level with
            | .open_ => .run .open_ .crossing
            | .closed => .run .closed .crossing
            | .duty _ => .idle

/-- The duty in force of a valve in %, signed towards OPEN; 0 where nothing drives (R324, R329). -/
def State.valveDuty (s : State) (v : Fin 8) : Int :=
  match (s.pwm.valves[v]).run with
  | none => 0
  | some r =>
    let sign : Int := if r.target = .open_ then 1 else -1
    match r.why with
    | .handover => sign * 100
    | .limit => sign * 100
    | .driveVerb =>
      match (s.pwm.valves[v]).manual with
      | .drive d => d
      | _ => 0
    | _ => sign * s.regN (Reg.mvDuty v)

/-! ### The period and the on-time a slice forms (R310, Table 12.2) -/

/-- The duty code of a percentage (R310). -/
def dutyCode (percent : Nat) : Nat := (2 * percent * 0xFFFFFF + 100) / 200

/-- The duty code in force on a slice: that of the run or drive on slices 0 to 7 (R309), the shadow on the others. -/
def State.sliceDuty (s : State) (i : Fin 12) : Nat :=
  if h : i.val < 8 then dutyCode (s.valveDuty ⟨i.val, h⟩).natAbs else (s.pwm.slices[i]).shadow.toNat

/-- 100 % of a duty code (R310). -/
def dutyFull : Nat := 0xFFFFFF

/-- The natural period of a carrier, in ticks, as numerator and denominator (Table 12.2). -/
def naturalPeriod (cft : Bool) (t pmax d : Nat) : Nat × Nat :=
  if cft then (if dutyFull ≤ d then (pmax, 1) else (t * dutyFull, dutyFull - d))
  else if d = 0 then (pmax, 1) else (t * dutyFull, d)

/-- The period: the natural one to the nearest tick, or the bound beyond which that lies before any rounding; and whether it is such a bound
(Table 12.2, R310). -/
def periodOf (natural : Nat × Nat) (pmin pmax : Nat) : Nat × Bool :=
  if natural.1 < pmin * natural.2 then (pmin, true)
  else if pmax * natural.2 < natural.1 then (pmax, true)
  else (divNear natural.1 natural.2, false)

/-- Where the on-phase ends, in 1/512 tick from the period start, for a period in force (Table 12.2, R312). -/
def onEdge (cft : Bool) (t d : Nat) (clamped : Bool) (p : Nat) : Nat :=
  if d = 0 then 0
  else if dutyFull ≤ d then 512 * p
  else if clamped then divNear (512 * d * p) dutyFull
  else if cft then 512 * (p - t) else 512 * t

/-- The period a slice would start now: its length, where its on-phase ends in 1/512 tick, and whether it is clamped (R310). -/
def State.carrier (s : State) (i : Fin 12) : Nat × Nat × Bool :=
  let cft := bit (s.reg (Reg.pwmCfg i)) 1
  let t := s.regN (Reg.pwmT i)
  let d := s.sliceDuty i
  let (p, clamped) := periodOf (naturalPeriod cft t (s.regN (Reg.pwmPmax i)) d) (s.regN (Reg.pwmPmin i)) (s.regN (Reg.pwmPmax i))
  (p, onEdge cft t d clamped p, clamped)

/-- The position of an end (R325). -/
def endPos : ValveEnd → Nat
  | .open_ => 1000
  | .closed => 0

/-- The valve is known to stand at an end (R325). -/
def Valve.setAt (y : Valve) (e : ValveEnd) : Valve :=
  { y with pos := endPos e, posFrac := 0, posValid := true, atOpen := decide (e = .open_), atClosed := decide (e = .closed) }

/-- The bridge coasts and no run is left. -/
def Valve.toCoast (y : Valve) : Valve := { y with run := none, bridge := .coast, brakeUntil := none }

/-- The ending of a handover or limit run is recorded: 0 end reached, 1 travel time, 2 limit fault, 3 HO_TIME (R70,
R209, Table 15.4). -/
def State.recordValveEnd (s : State) (v : Fin 8) (why : RunWhy) (how : Nat) : State :=
  match why with
  | .handover => s.record 0x007 v.val (BitVec.ofNat 24 how)
  | .limit => s.record 0x007 v.val (BitVec.ofNat 24 how)
  | _ => s

/-- The run of a valve reaches its target end: it brakes for MVv.BRAKE and its position is that of the end (R325). -/
def State.arrive (s : State) (v : Fin 8) : State :=
  match (s.pwm.valves[v]).run with
  | none => s
  | some r =>
    (s.modBridge v fun y =>
      { y.setAt r.target with run := none, bridge := .brake, brakeUntil := some (s.clk + 1000 * s.regN (Reg.mvBrake v))
                              ranFor := s.clk - r.startClk }).recordValveEnd
      v r.why (if r.timedEnd.isSome then 1 else 0)

/-- The words of the limit faults (Table 12.7). -/
def limitFaultWords : Nat → List Tok
  | 0 => [.word "LIMIT", .word "WRONG", .word "END"]
  | 1 => [.word "LIMIT", .word "BOTH"]
  | 2 => [.word "LIMIT", .word "CHATTER"]
  | _ => [.word "HOME", .word "TIMEOUT"]

/-- A valve that a handover runs, or has run, takes a limit fault: the handover starts it no more (R70). -/
def State.spoilHandover (s : State) (v : Fin 8) : State :=
  { s with power := { s.power with handover := s.power.handover.map fun (h : Handover) => { h with faulted := raise h.faulted v.val } } }

/-- Whether a bridge is in the brake that ends a handover's run (R70). -/
def Valve.runsOut (y : Valve) : Bool :=
  y.run.isNone && y.brakeUntil.isSome && match y.demand with
    | .run _ .handover => true
    | _ => false

/-- A limit fault latches a channel fault, brakes the bridge, and ends the current crossing (R327); in a handover or
limit run it also sets HOFAULT and is recorded (R70). A bridge that the kill tree or a group fault holds at its safe level keeps it for as long as
that demand stands above (Table 12.6, R323). Once a handover's run is over its keeper is released for no more than the brake that ends it (R22).
Kinds: 0 WRONGEND, 1 BOTH, 2 CHATTER, 3 TIMEOUT. -/
def State.limitFault (s : State) (v : Fin 8) (k : Nat) : State :=
  let y := s.pwm.valves[v]
  let s1 := s.modBridge v fun z =>
    let z := { z with fault := raise z.fault k, evt := raise z.evt k, posValid := false }
    if z.demand = .safe then z
    else
      { z with run := none, bridge := .brake, demand := .fault
               brakeUntil := if z.runsOut then z.brakeUntil else some (s.clk + 1000 * s.regN (Reg.mvBrake v)) }
  let s2 := (s1.record (0x204 + k) v.val (BitVec.ofNat 24 y.trans)).notice
    ([.word "VALVE", .num v.val] ++ limitFaultWords k)
  let s3 := match y.run with
    | some r =>
      match r.why with
      | .handover => ((s2.pwrEvt 3).recordValveEnd v .handover 2).spoilHandover v
      | .limit => (s2.pwrEvt 3).recordValveEnd v .limit 2
      | _ => s2
    | none => if y.runsOut then s2.spoilHandover v else s2
  s3.endCrossing (chV v) .fault

/-- Whether a valve already stands at an end: its enabled limit asserted, or MVv.STAT showing a timed end (R324). -/
def State.standsAt (s : State) (v : Fin 8) (e : ValveEnd) : Bool :=
  if s.limEnabled v e then s.limAsserted v e
  else match e with
    | .open_ => (s.pwm.valves[v]).atOpen
    | .closed => (s.pwm.valves[v]).atClosed

/-- Whether every gate of a bridge is off: it coasts, or its safe level is COAST (Table 12.6). -/
def State.coasts (s : State) (v : Fin 8) : Bool :=
  match (s.pwm.valves[v]).bridge with
  | .coast => true
  | .safeLevel => !bit (s.reg (Reg.pwmCfg (s.driver v))) 4
  | _ => false

/-- A bridge that leaves coast first has the low side of its switching half on for 10 µs (R318); any other has had it on before. -/
def Valve.charge (y : Valve) (clk : Nat) (coasts : Bool) : Valve :=
  if coasts then { y with chargeEnd := clk + 10, lowAtA := clk + 10, lowAtB := clk + 10, firstEnd := none } else y

/-- The first on-phase of a run begins with the end of the charge, whatever the phase of the carrier, and is as long as one of the run's duty
(R318, Table 12.8; the length DEDUCED, log 85). -/
def State.openFirst (s : State) (v : Fin 8) : State :=
  s.modValve v fun y => { y with firstEnd := some (240 * y.chargeEnd + (s.carrier (s.driver v)).2.1 / 512) }

/-- A run is started (R324): it latches BOTH and never drives where both limits are asserted (R327), ends at once where
the valve stands at its end, and else drives and counts. Without a limit its end is timed, but for a drive to a position (R325, R331). -/
def State.startRun (s : State) (v : Fin 8) (e : ValveEnd) (why : RunWhy) : State :=
  if s.limAsserted v .open_ && s.limAsserted v .closed then
    let s1 := s.limitFault v 1
    if why = .handover then s1.spoilHandover v else s1
  else if s.standsAt v e then
    (s.modBridge v fun y =>
      if y.run.isSome then
        { y.setAt e with run := none, bridge := .brake, trans := 0
                         brakeUntil := some (s.clk + 1000 * s.regN (Reg.mvBrake v)) }
      else if y.brakeUntil.isSome then { y.setAt e with trans := 0 }
      else { (y.setAt e).toCoast with trans := 0 }).recordValveEnd v why (if s.limEnabled v e then 0 else 1)
  else
    let s1 := s.modBridge v fun y =>
      { y.charge s.clk (s.coasts v) with
        run := some { target := e, why := why, startClk := s.clk
                      timedEnd := if s.limEnabled v e || decide (why = .position) && (s.pwm.valves[v]).posValid then none
                        else some (after s.time (s.lat (chV v))) }
        bridge := .running, brakeUntil := none, atOpen := false, atClosed := false, trans := 0
        act := if y.act = BitVec.allOnes 48 then y.act else y.act + 1 }
    if s.coasts v then s1.openFirst v else s1

/-- Position mode acts on its target (R331): homes first without a valid position; else drives towards the target when
it lies beyond the deadband. -/
def State.positionAim (s : State) (v : Fin 8) : State :=
  let y := s.pwm.valves[v]
  let aim (e : ValveEnd) : State :=
    match y.run with
    | some r => if r.target = e ∧ r.why = .position then s else s.startRun v e .position
    | none => s.startRun v e .position
  if !y.posValid then aim (s.homeEnd v)
  else if y.ptgt = 0 && s.limEnabled v .closed then
    (if y.pos = 0 && y.run.isNone && s.limAsserted v .closed then s else aim .closed)
  else if y.ptgt = 1000 && s.limEnabled v .open_ then
    (if y.pos = 1000 && y.run.isNone && s.limAsserted v .open_ then s else aim .open_)
  else if y.pos + s.regN (Reg.mvPdb v) < y.ptgt then aim .open_
  else if y.ptgt + s.regN (Reg.mvPdb v) < y.pos then aim .closed
  else s

/-- The predriver takes a demand that has come into force (R214, R215, Table 12.6). -/
def State.takeDemand (s : State) (v : Fin 8) (d : ValveDemand) : State :=
  let s1 := s.modValve v fun y => { y with demand := d }
  match d with
  | .locked => s1.modBridge v Valve.toCoast
  | .coast => s1.modBridge v Valve.toCoast
  | .safe => s1.modBridge v fun y => { y.toCoast with bridge := .safeLevel }
  | .fault => s1.modBridge v fun y =>
      { y.toCoast with bridge := .brake, brakeUntil := some (s.clk + 1000 * s.regN (Reg.mvBrake v)) }
  | .free =>
    let s2 := s1.modBridge v fun y => { y.toCoast.charge s.clk (s.coasts v) with bridge := .freeSlice }
    if s.coasts v then s2.openFirst v else s2
  | .run e why =>
    match (s.pwm.valves[v]).run with
    | some r => if r.target = e ∧ r.why = why then s1 else s1.startRun v e why
    | none => s1.startRun v e why
  | .drive n => s1.startRun v (if 0 < n then .open_ else .closed) .driveVerb
  | .position => (s1.modBridge v Valve.toCoast).positionAim v
  | .idle => s1.modBridge v fun y =>
      match y.run with
      | some r =>
        if (s.unit.st = .ready ∨ (s.engine.chans[chV v]).castNext) ∧ (r.why = .crossing ∨ r.why = .position) then y
        else y.toCoast
      | none => if y.brakeUntil.isSome then y else y.toCoast

/-- The predriver takes the highest demand in force where it is not the one it has (R214, R215). -/
def State.applyValve (s : State) (v : Fin 8) : State :=
  let d := s.valveDemand v
  if d = (s.pwm.valves[v]).demand then s else s.takeDemand v d

/-! ### Channel faults and the phases after BOOST -/

/-- A channel fault is latched: 0 SB, 1 SG, 2 NOLAND, 3 BANK; the current crossing ends with cause FAULT (R304). -/
def State.solFault (s : State) (c : Fin 32) (k : Nat) : State :=
  (s.modSol c fun ch => { ch with fault := raise ch.fault k }).endCrossing (chS c) .fault

/-- The cast of an OPEN or DUTY whose opening has passed without a dip, or was given up, never lands (R267, R287). -/
def State.missLanding (s : State) (c : Fin 32) : State :=
  s.modX (chS c) fun x =>
    { x with cur := x.cur.map fun (k : Current) =>
        if k.stage = .cast ∧ k.x.action ≠ .close ∧ s.unit.st.casting then { k with missed := true } else k }

/-- The no-landing window of an opening closes (R291). -/
def State.closeWindow (s : State) (c : Fin 32) : State :=
  let ch := s.sol.chans[c]
  if ch.dip.isSome then s
  else
    let n := Nat.min 15 (ch.nlrun + 1)
    let s1 := ((s.modSol c fun x => { x with nlrun := n }).missLanding c).solDiag c 4
    if s.profBit c 6 && decide (fld (s.reg (Reg.prof c)) 7 4 ≤ n) then s1.solFault c 2 else s1

/-- PEAK ends and HOLD starts (R281, R291). -/
def State.endPeak (s : State) (c : Fin 32) : State :=
  (s.modSol c fun ch => { ch with phase := .hold }).closeWindow c

/-- PEAK starts, or is skipped where its end lies at or before its start (R281); TPEAK and PKPOST are those in force now
(R283). -/
def State.startPeak (s : State) (c : Fin 32) : State :=
  let post := if s.profBit c 5 then some (s.pkpost c) else none
  let byTime := after s.time (s.tpeak c)
  let s1 := s.modSol c fun ch => { ch with post := post, phaseEnd := byTime, phase := .peak }
  match (s.sol.chans[c]).dip, post with
  | some t, some k =>
    let e := after t k
    if s.reached e ∨ s.tpeak c = 0 then s1.endPeak c
    else if k < s.tpeak c + s.since t then s1.modSol c fun ch => { ch with phaseEnd := e } else s1
  | _, _ => if s.tpeak c = 0 then s1.endPeak c else s1

/-- The BOOST of a channel ends: the VBST path opens, the arbiter is released and PEAK starts (R281). -/
def State.endBoost (s : State) (c : Fin 32) : State := (s.releaseArbiter c).startPeak c

/-- Whether the kill tree holds the VBST path of a bank open: a channel of the bank lies in the scope of a demand (R370). -/
def State.bankKilled (s : State) (b : Fin 8) : Bool :=
  ([0, 1, 2, 3] : List (Fin 4)).any fun k => s.killed (chS (chanOf b k))

/-- The kill tree on the banks of the channels it acts on: it empties their queues (R285) and ends the BOOST from VBST of
a channel outside the scope, which then teaches nothing; one within it goes off with its demand (R292, R370). -/
def State.killBanks (s : State) : State :=
  allBanks.foldl
    (fun t b =>
      if t.bankKilled b then
        let bank := t.sol.banks[b]
        let t1 := bank.queue.foldl (fun u c => u.modSol c fun ch => ch.rest s.clk) t
        let t2 := t1.modBank b fun x => { x with queue := [] }
        match bank.holder with
        | some c =>
          if (t.sol.chans[c]).phase = .boost ∧ bank.vbst ∧ !s.killed (chS c) then
            (t2.endBoost c).modSol c fun ch => { ch with teach := false }
          else t2
        | none => t2
      else t)
    s

/-! ### Slices and the converter -/

/-- Whether a slice's carrier runs: its domain on, EN 1, not disabled, a free slice not in a handover (R309, R319,
Table 3.7). -/
def State.sliceEnabled (s : State) (i : Fin 12) : Bool :=
  decide (s.phase = .running) && s.domainOn (56 + i.val) && bit (s.reg (Reg.pwmCfg i)) 0 && !s.pwm.dis.getLsbD i.val
    && !(decide (8 ≤ i.val) && s.handoverActs)

/-- A carrier that may run starts at a new period start, and one that may not halts; a bridge it drives leaves coast with it, or coasts after a dead time (R318,
R319). -/
def State.applySlice (s : State) (i : Fin 12) : State :=
  let on := s.sliceEnabled i
  let starts := on && !(s.pwm.slices[i]).running
  let s1 := s.modSlice i fun w =>
    if starts then { w with running := true, forced := s.groupFault i, startTick := 240 * s.clk, endTick := 240 * s.clk, ton := 0 }
    else if on then w
    else { w with running := false, syncs := [], ton := 0 }
  if on = (s.pwm.slices[i]).running then s1
  else
    allValves.foldl
      (fun t v =>
        if s.driver v ≠ i then t
        else
          let bridge := (s.pwm.valves[v]).bridge
          let t1 := t.modValve v fun y =>
            let z := s.markGates v (240 * s.clk) y
            if starts ∧ (bridge = .running ∨ bridge = .freeSlice) then z.charge s.clk true else z
          if starts ∧ (bridge = .running ∨ bridge = .freeSlice) then t1.openFirst v else t1) s1

/-- Whether the boost converter runs (R36, R288): its gate is an output the keeper holds off while VBAT is above 36 V (DEDUCED, log 83). -/
def State.boostMayRun (s : State) : Bool :=
  decide (s.phase = .running) && s.domainOn 107 && bit (s.reg Reg.bstCfg) 10 && s.power.vbatGood
    && s.power.handover.isNone && !s.power.vbatHigh

/-- BST.CFG.TARGET, in 0.1 V. -/
def State.bstTarget (s : State) : Nat := fld (s.reg Reg.bstCfg) 0 10

/-- Whether VBST lies within ±5 % of the target. -/
def State.inBand (s : State) (vbst : Nat) : Bool :=
  decide (19 * s.bstTarget ≤ 20 * vbst) && decide (20 * vbst ≤ 21 * s.bstTarget)

/-- The converter starts with its ramp, ready at once where VBST as last measured lies within the band, or stops (R286, R288). -/
def State.applyBoost (s : State) : State :=
  let on := s.boostMayRun
  s.modBoost fun b =>
    if on then (if b.run then b else { b with run := true, startAt := s.clk, judged := false, rdy := s.inBand b.vmeas })
    else { b with run := false, rdy := false, ov := false, limited := false, gate := false }

/-- Readiness is lost (R286): each BOOST from VBST in progress continues, is reported and teaches nothing. -/
def State.boostUnready (s : State) : State :=
  allSol.foldl
    (fun t c =>
      if (s.sol.chans[c]).phase = .boost ∧ (s.sol.banks[bankOf c]).vbst then
        (t.modSol c fun ch => { ch with teach := false }).solDiag c 5
      else t) s

/-- Whether the hold-up charger runs (R78); from a reset's assertion to the end of the boot VHLD is at high impedance (R28, R94). -/
def State.charging (s : State) : Bool :=
  decide (s.phase = .running) && s.domainOn 113 && s.power.vbatGood && s.power.handover.isNone

/-- What the charger charges towards, in 0.1 V: PWR.HLD_V, to 3 %, or VBAT − 1.5 V where VBAT is less than HLD_V + 1.5 V (R78, R400). -/
def State.chargeTarget (s : State) : Nat :=
  if s.power.vbat < s.regN Reg.hldV + 15 then s.power.vbat - 15
  else (s.regN Reg.hldV * (1000 + clampZ (-30) 30 (Config.chargeVolts s.clk)) / 1000).toNat

/-- The current the charger may drive into VHLD, at most, in mA: none unless it runs and VHLD is below its target, else PWR.HLD_I, to 10 % (R78,
R400). -/
def State.chargeLimit (s : State) : Nat :=
  if s.charging && decide (s.power.vhld < s.chargeTarget) then
    (s.regN Reg.hldI * (1000 + clampZ (-100) 100 (Config.chargeAmps s.clk)) / 1000).toNat
  else 0

/-! ### The end of a handover and of a limit action -/

/-- Whether a valve still runs for any reason, or brakes. -/
def State.anyMoving (s : State) : Bool := allValves.any fun v => (s.pwm.valves[v]).run.isSome || (s.pwm.valves[v]).brakeUntil.isSome

/-- Handover step 7, once every valve has stopped and its brake is over (Table 3.7, R70, R76, R201, R206): SAFE with cause HANDOVER, or DRYDOCK as
it was. The 50 ms count starts where VBATGOOD is 1. -/
def State.finishHandover (s : State) : State :=
  match s.power.handover with
  | none => s
  | some h =>
    if !h.acting || s.anyMoving then s
    else
      let s1 := { s with power := { s.power with handover := none } }
      if h.inDrydock then s1
      else
        let s2 := { s1 with
          power := { s1.power with handed := true
                                   returnArmed := true
                                   returnAt := if s1.power.vbatGood then some (s1.clk + 50000) else none }
          unit := { s1.unit with limitAction := false
                                 safe := if s1.unit.limitAction then raise (raise s1.unit.safe 1) 3 else raise s1.unit.safe 1 } }
        let s3 := s2.markStale.closeLevels
        if s3.unit.st = .safe then s3 else s3.enter .safe .handover

/-- The limit action's end, once every valve has stopped, whatever ran it, and its brake is over: SAFE with cause STRANDED (R209). -/
def State.finishLimit (s : State) : State :=
  if !s.unit.limitAction || s.anyMoving || s.power.handover.isSome then s
  else
    let s1 := { s with unit := { s.unit with limitAction := false, safe := raise s.unit.safe 3 } }
    let s2 := s1.markStale.closeLevels
    if s2.unit.st = .safe then s2 else s2.enter .safe .limit

/-- Every output takes the highest demand in force (R214, R215): converter, carriers, solenoids in ascending order, and
predrivers. A converter that stops takes readiness from a BOOST that goes on (R286). -/
def State.applyAll (s : State) : State :=
  let s1 := allSlices.foldl State.applySlice s.applyBoost
  let s2 := allSol.foldl State.applySol s1
  let s3 := if s.sol.boost.rdy && !s2.sol.boost.rdy then s2.boostUnready else s2
  allValves.foldl State.applyValve s3

/-- Every output follows its demand, and a handover or limit action whose valves have all stopped ends. -/
def State.refresh (s : State) : State :=
  let s1 := s.applyAll
  let s2 := s1.finishHandover.finishLimit
  if s2.unit.st = s1.unit.st ∧ s2.power.handover.isSome = s1.power.handover.isSome then s2 else s2.applyAll

end Sys2Proof.Machine
end

