-- ==== Sys2Proof/Machine/Flags.lean ====
section
/-! DEFINITION. What every status register shows (the RO and W1C paths of the register tables), the domain that decides
whether a path can be read (R57, R417), the clearing of flags (R10, R12) and of counters (R167), nATTN (R239), the high
sides (R279) and the open counts (R276). -/
namespace Sys2Proof.Machine

open Sys2Proof

/-- Bits given as a list, lowest first. -/
def bitsOf : List Bool → Nat
  | [] => 0
  | b :: rest => b2n b + 2 * bitsOf rest

/-- A word from a number. -/
def w24 (n : Nat) : Word := BitVec.ofNat 24 n

/-- A word from a signed number. -/
def z24 (n : Int) : Word := BitVec.ofInt 24 n

/-- 24 bits of a longer word, from bit `lo`. -/
def slice24 {n : Nat} (w : BitVec n) (lo : Nat) : Word := BitVec.ofNat 24 (w.toNat / 2 ^ lo)

/-! ### Open counts and high sides -/

/-- Whether a channel's output is under level 8 of the demand order (R214, R276). -/
def State.atLevel8 (s : State) (c : Fin 40) : Bool :=
  s.released && s.unit.st.casting && s.domainOn (chanDomain c) && !s.handoverActs && !s.killed c && !s.held c
    && !s.unit.limitAction &&
    match chanKind c with
    | .inl i => decide ((s.sol.chans[i]).fault = 0)
    | .inr v => decide ((s.pwm.valves[v]).fault = 0) && !s.groupFault (s.driver v)

/-- The cast count (R276): counting channels whose scheduled level, set by a cast, is OPEN or DUTY. -/
def State.openCast (s : State) : Nat :=
  if s.unit.st.casting then
    (allChans.filter fun c =>
      let x := s.engine.chans[c]
      s.xcfgBit c 3 && x.sched && !x.heldLevel && decide (x.level ≠ .closed)).length
  else 0

/-- The landed count (R276): counting channels whose current crossing is OPEN or DUTY in stage LANDED, under level 8. -/
def State.openLanded (s : State) : Nat :=
  if s.unit.st.casting then
    (allChans.filter fun c =>
      match (s.engine.chans[c]).cur with
      | some k => s.xcfgBit c 3 && decide (k.stage = .landed) && decide (k.x.action ≠ .close) && s.atLevel8 c
      | none => false).length
  else 0

/-- The count the pilot's feed-forward reads (R277, R342). -/
def State.openCount (s : State) : Nat := if bit (s.reg Reg.xngCfg) 0 then s.openCast else s.openLanded

/-- What the high side of a bank connects to (R22, R279, R370, Table 11.9). The VBAT path outlasts the states of R22, and the beginning of a
handover, while a coil of the bank still decays. -/
def State.hsPath (s : State) (b : Fin 8) : HsPath :=
  let k := s.sol.banks[b]
  if s.keeperHolds || !s.domainOn (32 + b.val) || k.fault ≠ 0 then .off
  else if k.vbst && !s.bankKilled b then .vbst
  else if (s.unit.st.armed && !s.handoverActs) || ([0, 1, 2, 3] : List (Fin 4)).any (fun i => (s.sol.chans[chanOf b i]).decaying) then .vbat
  else .off

/-- The sum of the depths in force (R249). -/
def State.depthSum (s : State) : Nat := (allChans.map s.depth).sum

/-- The crossings held by all manifests. -/
def State.crossingsHeld (s : State) : Nat := (s.engine.chans.toList.map fun x => x.manifest.length).sum

/-! ### Status of each block -/

/-- CLK.STAT.REF. -/
def ClkRef.code : ClkRef → Nat
  | .irc => 0
  | .xo => 1
  | .ck => 2

/-- CLK.STAT.MODE. -/
def TimeMode.code : TimeMode → Nat
  | .unset => 0
  | .track => 1
  | .coast => 2
  | .holdover => 3

/-- PWR.STAT [5:4]. -/
def WakeSource.code : WakeSource → Nat
  | .reset => 0
  | .bow => 1
  | .stern => 2
  | .pin => 3

/-- PWR RO and W1C paths (Table 3.3). -/
def State.readPwr (s : State) (i : Nat) : Word :=
  match i with
  | 0x18 => w24 (b2n s.power.vbatGood + 2 * b2n s.power.hldOk + 4 * b2n s.power.handover.isSome + 8 * b2n s.power.up
      + 16 * s.power.wake.code)
  | 0x19 => s.power.evt.setWidth 24
  | _ => if 8 ≤ i ∧ i ≤ 12 then slice24 s.power.on (24 * (i - 8)) else 0

/-- The code of a slot's state in BOOT.SLOT. -/
def SlotState.code : SlotState → Nat
  | .empty => 0
  | .valid => 1
  | .bad => 2
  | .loading => 3

/-- RST and BOOT RO paths (Table 4.10). -/
def State.readRst (s : State) (i : Nat) : Word :=
  if h : 0x12 ≤ i ∧ i ≤ 0x15 then (s.boot.slots[i - 0x12]).version
  else if h : 0x16 ≤ i ∧ i ≤ 0x19 then (s.boot.slots[i - 0x16]).ifl.setWidth 24
  else match i with
  | 0 => s.rst.lastCause
  | 1 => s.rst.table.setWidth 24
  | 3 => w24 (b2n s.rst.fused.isSome)
  | 4 => s.rst.strap.setWidth 24
  | 6 => s.rst.stepping
  | 0x10 => w24 (s.boot.purser + 4 * b2n s.boot.pilotB + 8 * b2n s.boot.untested + 16 * b2n s.boot.runAccepted
      + 32 * s.boot.dockReason)
  | 0x11 => w24 ((s.boot.slots[0]).st.code + 4 * (s.boot.slots[1]).st.code + 16 * (s.boot.slots[2]).st.code
      + 64 * (s.boot.slots[3]).st.code)
  | 0x1A => w24 s.boot.fails
  | _ => 0

/-- Whether the hop delay for the upstream port is valid (R123): a unit at address 0 has none (R121, R165). -/
def State.hopValid (s : State) : Bool :=
  decide (s.chain.addr ≠ 0) && match s.chain.upPort with
  | .bow => s.chain.hopBValid
  | .stern => s.chain.hopSValid

/-- A cumulative delay in 1/4096 µs as its register shows it, rounded to 1/256 µs, with its valid bit. -/
def hopWord (d : Nat) (valid : Bool) : Word := w24 ((d + 8) / 16 % 2 ^ 23 + 2 ^ 23 * b2n valid)

/-- TLO, THI and CLK RO and W1C paths (Table 5.9). -/
def State.readClk (s : State) (i : Nat) : Word :=
  match i with
  | 0 => tlo s.time
  | 1 => thi s.time
  | 2 => w24 (s.clocks.ref.code + 4 * b2n s.clocks.lock + 8 * s.clocks.mode.code + 32 * b2n s.clocks.aligned
      + 64 * b2n s.clocks.xoStable + 128 * b2n s.clocks.ircOk + 256 * b2n s.clocks.lxoOk + 512 * b2n s.hopValid
      + 1024 * s.clocks.rate.val + 16384 * s.chain.upPort.code + 32768 * b2n s.clocks.holdIrc)
  | 3 => s.clocks.evt.setWidth 24
  | 4 => hopWord s.chain.hopB (s.chain.hopBValid && decide (s.chain.addr ≠ 0))
  | 5 => hopWord s.chain.hopS (s.chain.hopSValid && decide (s.chain.addr ≠ 0))
  | 6 => s.clocks.terr
  | 7 => s.clocks.fofs
  | _ => 0

/-- A port's error counter `k`, in the order CHAR, CRC, ALIGN, FRAME, CKLOSS, LINKLOSS (Table 6.9). -/
def PortState.counter (p : PortState) : Nat → Word
  | 0 => p.eChar
  | 1 => p.eCrc
  | 2 => p.eAlign
  | 3 => p.eFrame
  | 4 => p.eCkLoss
  | _ => p.eLink

/-- Whether the unit is the end of its chain for sweeps: its downstream link lost, or FARHELM set (R153). -/
def State.isEnd (s : State) : Bool := !s.chain.dnLink || s.chain.farHelm

/-- CHN RO and W1C paths (Table 6.9). UPLINK, which the table only names, shows an upstream port that is taken and whose receiver is aligned
(DESIGN CHOICE, log 96). -/
def State.readChn (s : State) (i : Nat) : Word :=
  let c := s.chain
  if 0x10 ≤ i ∧ i ≤ 0x15 then c.bow.counter (i - 0x10)
  else if 0x16 ≤ i ∧ i ≤ 0x1B then c.stern.counter (i - 0x16)
  else match i with
  | 0 => c.addr.setWidth 24
  | 2 => slice24 c.serial 0
  | 3 => slice24 c.serial 24
  | 4 => w24 (bitsOf [decide (c.upPort = .stern), !c.released && (c.port c.upPort).aligned, c.dnLink, s.isEnd, c.farHelm,
      c.freeEnd, s.unit.kill, c.swapHold, c.enumDue.isSome, c.helmReq.isSome, c.released])
  | 5 => w24 (c.downHop.toNat + 2 ^ 23 * b2n c.downHopValid)
  | 6 => w24 (Nat.min 16 c.outstanding.length)
  | 7 => c.evt.setWidth 24
  | 8 => w24 c.notices
  | 0x1C => c.eNlost
  | _ => 0

/-- The staged writes of the unit, those of pending tides included (R186, R187). -/
def State.stagedCount (s : State) : Nat :=
  s.manil.staged.length + (s.manil.tides.map fun t => t.writes.length).sum

/-- Whether an entry of a queue is a line that waits for execution; the refusal of a line that found its queue full only waits for
its place among the replies (R181). -/
def QLine.isLine (q : QLine) : Bool :=
  match q.what with
  | .inr e => decide (e.code ≠ 16)
  | .inl _ => true

/-- The lines a queue holds. -/
def linesIn (q : List QLine) : Nat := (q.filter QLine.isLine).length

/-- MNL RO paths (Table 7.9). -/
def State.readMnl (s : State) (i : Nat) : Word :=
  let m := s.manil
  match i with
  | 2 => w24 (b2n m.conLock + 2 * Nat.min 4 m.musters.length + 16 * Nat.min 4 m.tides.length
      + 128 * b2n (decide (8 ≤ linesIn m.chainQ)) + 256 * b2n (decide (2 ≤ linesIn m.conQ)))
  | 3 => w24 s.stagedCount
  | 0x10 => m.eCheck
  | 0x11 => m.eSyntax
  | 0x12 => m.eAddr
  | 0x13 => m.eCon
  | _ => 0

/-- Saturation at the top of a 24-bit register. -/
def sat24 (n : Nat) : Word := w24 (Nat.min 0xFFFFFF n)

/-- STA RO and W1C paths (Table 8.8). -/
def State.readSta (s : State) (i : Nat) : Word :=
  let u := s.unit
  match i with
  | 0 => w24 (u.st.code + 8 * b2n u.kill + 16 * b2n s.stopFlag + 32 * b2n s.anyStale + 64 * b2n s.boot.untested
      + 128 * b2n (decide (s.clocks.mode = .holdover)))
  | 1 => u.safe.setWidth 24
  | 5 => slice24 u.shut 0
  | 6 => slice24 u.shut 24
  | 7 => u.evt.setWidth 24
  | 8 => sat24 (u.strUsed / 65536)
  | 9 => sat24 (u.strUs / 1000)
  | _ => 0

/-- FIN RO and W1C paths (Table 9.3). -/
def State.readFin (s : State) (i : Nat) : Word :=
  if h : i < 32 then
    let f := s.motion.fins[i / 4]
    match i % 4 with
    | 1 => f.count
    | 2 => f.period
    | _ => w24 (b2n (xor f.level (bit (s.reg (Reg.finCfg (i / 4))) 14)) + 2 * b2n f.stopped + 4 * b2n f.qdown)
  else if i = 0x20 then s.motion.finEvt.setWidth 24 else 0

/-- ENC RO and W1C paths (Table 9.4). -/
def State.readEnc (s : State) (i : Nat) : Word :=
  if h : i < 32 then
    let e := s.motion.encs[i / 8]
    match i % 8 with
    | 2 => e.word
    | 3 => e.time
    | 6 => w24 (b2n e.valid + 2 * b2n e.decreasing + 4 * b2n e.fault)
    | _ => e.err
  else if i = 0x20 then s.motion.encEvt.setWidth 24 else 0

/-- Whole millimetres of a position in 1/65536 mm. -/
def mmOf (p : BitVec 40) : Word := slice24 p 16

/-- ODO RO and W1C paths (Table 9.5). -/
def State.readOdo (s : State) (i : Nat) : Word :=
  let m := s.motion
  match i with
  | 0 => mmOf m.pos
  | 1 => w24 (m.pos.toNat % 65536)
  | 9 => z24 m.vel.round
  | 10 => z24 m.acc.round
  | 11 => z24 m.yaw.round
  | 12 => match m.pairs with
    | p :: _ => mmOf p.pos
    | [] => 0
  | 13 => match m.pairs with
    | p :: _ => tlo p.t
    | [] => 0
  | 14 => w24 (b2n m.dirRev + 2 * b2n m.moving + 4 * b2n m.speedStale + 8 * b2n (decide (2 ≤ m.pairs.length)))
  | 15 => m.evt.setWidth 24
  | 18 => match m.speed with
    | some f => z24 f.v
    | none => 0
  | 19 => match m.speed with
    | some f => z24 f.w
    | none => 0
  | _ => 0

/-- The code of an action in a crossing record (Table 10.2). -/
def actionCode : CrossAction → Nat
  | .open_ => 0
  | .close => 1
  | .duty => 2

/-- Word 2 of a crossing record (Table 10.2). -/
def Crossing.word2 (x : Crossing) : Nat :=
  actionCode x.action + 4 * x.duty + 512 * x.dir + 2048 * b2n x.late + 4096 * b2n x.noLearn + 8192 * b2n x.notify
    + 16384 * b2n x.noTc + 32768 * b2n x.stale

/-- The entry a source's XNG.VSEL selects (R254). -/
def State.selected (s : State) (src : Source) : Option Crossing :=
  let v := match src with
    | .chain => s.engine.vselChain
    | .console => s.engine.vselConsole
  if h : fld v 0 6 < 40 then (s.engine.chans[fld v 0 6]).manifest[fld v 6 11]? else none

/-- XNG RO and W1C paths (Table 10.9). -/
def State.readXng (s : State) (src : Source) (i : Nat) : Word :=
  match i with
  | 3 => w24 s.openCast
  | 4 => w24 s.openLanded
  | 5 => w24 s.crossingsHeld
  | 6 => w24 (1536 - s.depthSum)
  | 8 => match s.selected src with
    | some x => x.target
    | none => 0
  | 9 => match s.selected src with
    | some x => x.ident
    | none => 0
  | 10 => match s.selected src with
    | some x => w24 (x.word2 + 65536)
    | none => 0
  | 11 => s.engine.evt.setWidth 24
  | 0x10 => s.engine.eMiss
  | 0x11 => s.engine.eLate
  | 0x12 => s.engine.eRcast
  | _ => 0

/-- The stage of a channel's newest current crossing in CHcc.XSTAT. -/
def stageCode (x : XChan) : Nat :=
  if x.decided ≠ [] then 1
  else match x.cur with
  | none => 0
  | some k => match k.stage with
    | .decided => 1
    | .cast => 2
    | .landed => 3

/-- The RO crossing paths of a channel (Table 10.10). -/
def State.readChx (s : State) (c : Fin 40) (k : Nat) : Word :=
  let x := s.engine.chans[c]
  match k with
  | 1 => w24 (s.latl c)
  | 2 => x.latm.setWidth 24
  | _ => w24 (x.manifest.length + 2048 * b2n (x.manifest.any (·.stale)) + 4096 * stageCode x
      + 16384 * b2n (decide (x.level ≠ .closed)) + 32768 * b2n x.heldLevel)

/-- Whether the converter still ramps (R288). -/
def State.boostRamp (s : State) : Bool := s.sol.boost.run && decide (s.clk < s.sol.boost.startAt + 10000)

/-- Whether a channel has a diagnostic or a fault to show, its domain being on (Table 11.12, R417). -/
def State.solFlagged (s : State) (c : Fin 32) : Bool :=
  s.domainOn c.val && (decide ((s.sol.chans[c]).diag ≠ 0) || decide ((s.sol.chans[c]).fault ≠ 0))

/-- Whether a bank has a fault or event to show. -/
def State.bankFlagged (s : State) (b : Fin 8) : Bool :=
  s.domainOn (32 + b.val) && (decide ((s.sol.banks[b]).fault ≠ 0) || decide ((s.sol.banks[b]).evt ≠ 0))

/-- BST and SOL RO and W1C paths (Table 11.12). -/
def State.readBst (s : State) (i : Nat) : Word :=
  let b := s.sol.boost
  match i with
  | 1 => w24 (bitsOf [b.rdy, b.run, b.ov, b.limited, s.boostRamp])
  | 2 => w24 (Nat.min 1023 b.vmeas)
  | 3 => b.evt.setWidth 24
  | 5 => w24 (bitsOf ((allSol.take 24).map s.solFlagged))
  | 6 => w24 (bitsOf ((allSol.drop 24).map s.solFlagged ++ allBanks.map s.bankFlagged))
  | _ => 0

/-- The code of a phase in CHcc.STAT [2:0]. -/
def SolPhase.code : SolPhase → Nat
  | .idle => 0
  | .queued => 1
  | .boost => 2
  | .peak => 3
  | .hold => 4
  | .off => 5
  | .offwait => 6
  | .bnrwait => 7

/-- The RO and W1C paths of a solenoid channel (Table 11.14). -/
def State.readSol (s : State) (c : Fin 32) (k : Nat) : Word :=
  let ch := s.sol.chans[c]
  match k with
  | 1 => w24 (ch.phase.code + 8 * bitsOf [ch.pulsing, ch.dip.isSome, decide (ch.fault ≠ 0), s.leads c, s.isOdd c,
      decide (s.hsPath (bankOf c) = .vbst)])
  | 2 => (s.filtered c).setWidth 24
  | 3 => ch.diag.setWidth 24
  | 4 => ch.fault.setWidth 24
  | 5 => slice24 ch.act 0
  | 6 => slice24 ch.act 24
  | _ => w24 ch.nlrun

/-- The RO and W1C paths of a bank (Table 11.15). -/
def State.readBank (s : State) (b : Fin 8) (k : Nat) : Word :=
  let x := s.sol.banks[b]
  let boosting : Option (Fin 32) := match x.holder with
    | some c => if (s.sol.chans[c]).phase = .boost then some c else none
    | none => none
  match k with
  | 1 => w24 ((match boosting with | some c => c.val % 4 | none => 0) + 4 * b2n boosting.isSome
      + 8 * Nat.min 3 x.queue.length
      + 32 * bitsOf [decide (s.hsPath b = .vbst), decide (s.hsPath b = .vbat), x.otwNow, decide (x.fault ≠ 0), x.readyLast])
  | 2 => x.fault.setWidth 24
  | 3 => z24 x.temp
  | _ => x.evt.setWidth 24

/-- How the fault inputs read: active at the level FLT.CFG.POL gives (R320). -/
def State.fltActive (s : State) : BitVec 3 := s.pwm.fltPin ^^^ BitVec.ofNat 3 (fld (s.reg Reg.fltCfg) 3 3)

/-- Whether a slice stands in its on-phase (R310). -/
def State.inOnPhase (s : State) (i : Fin 12) : Bool :=
  let w := s.pwm.slices[i]
  w.running && decide (w.startTick ≤ 240 * s.clk) && decide (240 * s.clk < w.startTick + w.ton)

/-- Whether a slice waits for a sync pulse (R315). -/
def State.waitsSync (s : State) (i : Fin 12) : Bool :=
  (s.pwm.slices[i]).running && decide (0 < i.val) && bit (s.reg (Reg.pwmCfg i)) 3
    && decide ((s.pwm.slices[i]).endTick ≤ 240 * s.clk)

/-- Whether a fault input or the kill tree forces the outputs of a slice (Table 12.9). -/
def State.sliceForced (s : State) (i : Fin 12) : Bool :=
  s.groupFault i || ((s.pwm.slices[i]).forced && (s.pwm.slices[i]).running) || allValves.any fun v => decide (s.driver v = i) && decide ((s.pwm.valves[v]).demand = .safe)

/-- The RO and RW paths of a slice (Table 12.9). -/
def State.readSlice (s : State) (i : Fin 12) (k : Nat) : Word :=
  let w := s.pwm.slices[i]
  match k with
  | 1 => w24 (s.sliceDuty i)
  | 6 => w24 (bitsOf [w.running, s.pwm.dis.getLsbD i.val || !bit (s.reg (Reg.pwmCfg i)) 0, s.sliceForced i, w.clamped,
      s.inOnPhase i, s.waitsSync i, w.fine])
  | _ => w24 w.per

/-- The paths of block 0x14 that are not configuration (Table 12.10). -/
def State.readPwm (s : State) (i : Nat) : Word :=
  match i with
  | 0 => s.pwm.dis.setWidth 24
  | 2 => w24 (s.pwm.fltLatch.toNat + 8 * s.fltActive.toNat)
  | 3 => s.pwm.fltEvt.setWidth 24
  | 4 => if s.domainOn 111 then w24 (s.pwm.taps % 64 + 64 * b2n s.pwm.calOk) else 0
  | 5 => s.pwm.evt.setWidth 24
  | _ => 0

/-- MVv.STAT [2:0]. -/
def Valve.statCode (y : Valve) : Nat :=
  match y.bridge with
  | .coast => 0
  | .running =>
    match y.run with
    | some r => if r.why = .driveVerb then 4 else if r.target = .open_ then 1 else 2
    | none => 0
  | .brake => 3
  | .freeSlice => 5
  | .safeLevel => 6

/-- The RO, RW and W1C paths of a valve (Table 12.11). -/
def State.readValve (s : State) (v : Fin 8) (k : Nat) : Word :=
  let y := s.pwm.valves[v]
  match k with
  | 5 => w24 y.ptgt
  | 7 => w24 y.pos
  | 8 => w24 (y.statCode + 8 * bitsOf [s.limAsserted v .open_, s.limAsserted v .closed, y.posValid, y.atOpen, y.atClosed]
      + 256 * Nat.min 15 y.trans)
  | 9 => y.fault.setWidth 24
  | 10 => y.evt.setWidth 24
  | 11 => slice24 y.act 0
  | _ => slice24 y.act 24

/-- LOOPl.STAT [1:0]. -/
def LoopState.code : LoopState → Nat
  | .off => 0
  | .run => 1
  | .hold => 2
  | .manual => 3

/-- A value in 1/256 rounded to an integer, ties away from zero (R341, R343). -/
def round256 (n : Int) : Int := roundDiv n 256

/-- The RO paths of a loop (Table 13.9). -/
def State.readLoop (s : State) (l : Fin 8) (k : Nat) : Word :=
  let x := s.pilot.loops[l]
  match k with
  | 15 => z24 (round256 x.pvf)
  | 16 => z24 x.spe
  | 17 => z24 x.u
  | 18 => z24 x.i
  | 19 => w24 (x.st.code + 4 * x.causes.toNat + 128 * bitsOf [x.atMax, x.atMin, x.awu])
  | _ => x.scnt

/-- TRCb.STAT [2:0]. -/
def TraceState.code : TraceState → Nat
  | .idle => 0
  | .fill => 1
  | .wait => 2
  | .post => 3
  | .done => 4
  | .stopped => 5

/-- The RO paths of a trace bank (Table 13.10). -/
def State.readTrace (s : State) (b : Fin 4) (k : Nat) : Word :=
  let x := s.pilot.traces[b]
  match k with
  | 4 => w24 (x.st.code + 8 * x.entries.length)
  | 5 => w24 (x.tidx + 4096 * b2n x.triggered)
  | 6 => tlo x.trigTime
  | _ => thi x.trigTime

/-- The RO and W1C paths of block 0x17 (Table 13.10). -/
def State.readPil (s : State) (i : Nat) : Word :=
  if h : 0x10 ≤ i ∧ i < 0x30 then s.readTrace ⟨(i - 0x10) / 8, by omega⟩ ((i - 0x10) % 8)
  else match i with
  | 0 => w24 (bitsOf ((s.pilot.loops.toList.map fun x => decide (x.st ≠ .off)) ++ [s.domainOn 92 && decide (s.phase = .running)]))
  | 1 => s.pilot.evt.setWidth 24
  | _ => 0

/-- The code of who stopped first (Table 14.7). -/
def State.readPair (s : State) (p : Fin 4) (k : Nat) : Word :=
  let q := s.safety.pairs[p]
  match k with
  | 3 => w24 (bitsOf [q.active && s.readsStopA p, q.active && s.readsStopB p, s.effStop p,
        q.latch || (decide (s.pairFunc p = .fold) && s.pairDrives p), q.discrep, q.onset.isSome, q.run10]
      + 128 * q.first.toNat)
  | 4 => match q.onset with
    | some t => w24 (Nat.min 2047 ((s.clk - t) / 1000))
    | none => 0
  | _ => q.trips

/-- The RO and W1C paths of block 0x19 (Table 14.7). -/
def State.readSfp (s : State) (i : Nat) : Word :=
  if h : i < 32 then s.readPair ⟨i / 8, by omega⟩ (i % 8)
  else match i with
  | 0x20 => s.safety.evt.setWidth 24
  | 0x22 =>
    let d := allPairs.map s.pairDrives
    w24 (bitsOf ([s.unit.kill || d.any id, s.unit.kill] ++ d))
  | _ => 0

/-- The sequence number of the newest record held, 0 where none is (R383). -/
def Recorder.newest (r : Recorder) : Word :=
  match r.held.getLast? with
  | some x => x.seq
  | none => 0

/-- The sequence number of the oldest record held, 0 where none is. -/
def Recorder.oldest (r : Recorder) : Word :=
  match r.held with
  | x :: _ => x.seq
  | [] => 0

/-- The RO and W1C paths of block 0x1A (Table 15.7). -/
def State.readRec (s : State) (i : Nat) : Word :=
  let r := s.recorder
  match i with
  | 0 => w24 (r.held.length + 8192 * bitsOf [!r.queue.isEmpty, r.optSat, r.pcSat])
  | 1 => r.newest
  | 2 => r.oldest
  | 3 => r.optime
  | 4 => r.pcycle
  | 0x0A => r.evt.setWidth 24
  | 0x10 => r.eLost
  | 0x11 => r.eAuth
  | _ => 0

/-- The RO paths of block 0x1B (Table 15.8). -/
def State.readCal (s : State) (i : Nat) : Word :=
  match i with
  | 0 => s.cal.secs.setWidth 24
  | 1 => s.cal.days.setWidth 24
  | 2 => w24 (bitsOf [s.cal.set, s.cal.ended, s.cal.drift])
  | 0x16 => w24 (bitsOf [s.owner.key.isSome, s.owner.chain.grant.isSome, s.owner.console.grant.isSome,
      s.owner.chain.lockout.isSome, s.owner.console.lockout.isSome])
  | _ => 0

/-- What a status path reads, by its address (Tables 17.3 to 17.7). -/
def State.readStatus (s : State) (src : Source) (a : Nat) : Word :=
  let i := a % 256
  match a / 256 with
  | 0x03 => s.readPwr i
  | 0x04 => s.readRst i
  | 0x05 => s.readClk i
  | 0x06 => s.readChn i
  | 0x07 => s.readMnl i
  | 0x08 => s.readSta i
  | 0x09 => s.readFin i
  | 0x0A => s.readEnc i
  | 0x0B => s.readOdo i
  | 0x0C => s.readXng src i
  | 0x0D => s.readChx ⟨i / 8 % 32, by omega⟩ (i % 8)
  | 0x0E => s.readChx ⟨32 + i / 8 % 8, by omega⟩ (i % 8)
  | 0x0F => s.readBst i
  | 0x11 => s.readSol ⟨i / 8 % 32, by omega⟩ (i % 8)
  | 0x12 => s.readBank ⟨i / 16 % 8, by omega⟩ (i % 16)
  | 0x13 => s.readSlice ⟨i / 16 % 12, by omega⟩ (i % 16)
  | 0x14 => s.readPwm i
  | 0x15 => s.readValve ⟨i / 16 % 8, by omega⟩ (i % 16)
  | 0x16 => s.readLoop ⟨i / 32 % 8, by omega⟩ (i % 32)
  | 0x17 => s.readPil i
  | 0x18 => match s.pilot.ain[(i - 0x10) % 12]? with
    | some (some v) => v.setWidth 24
    | _ => 0
  | 0x19 => s.readSfp i
  | 0x1A => s.readRec i
  | 0x1B => s.readCal i
  | _ => 0

/-- What a GET of a path returns (R10, R11): the register file for ST and LV paths, 0 for WO, and else the status or the
RW value as its block holds it. -/
def State.readPath (s : State) (src : Source) (a : Nat) : Word :=
  match pathInfo a with
  | none => 0
  | some p =>
    match p.access with
    | .st => s.reg a
    | .lv => s.reg a
    | .wo => 0
    | .rw => if a = Reg.vsel then (match src with | .chain => s.engine.vselChain | .console => s.engine.vselConsole)
        else s.readStatus src a
    | _ => s.readStatus src a

/-! ### Domains that decide a read (R57, R417) -/

/-- The power domain that decides whether an RO or W1C path can be read (Table 3.8); none where it never is refused. -/
def pathDomain (a : Nat) : Option Nat :=
  let i := a % 256
  match a / 256 with
  | 0x09 => if i < 32 then some (72 + i / 4) else none
  | 0x0A => if i < 32 then some (68 + i / 8) else none
  | 0x0B => some 101
  | 0x0C => some 101
  | 0x0D => some 101
  | 0x0E => some 101
  | 0x0F => if 1 ≤ i ∧ i ≤ 3 then some 107 else none
  | 0x11 => if i % 8 = 5 ∨ i % 8 = 6 then none else some (i / 8)
  | 0x12 => some (32 + i / 16)
  | 0x13 => some (56 + i / 16)
  | 0x15 => if i % 16 = 11 ∨ i % 16 = 12 then none else some (48 + i / 16)
  | 0x16 => some (84 + i / 32)
  | 0x17 => if 0x10 ≤ i then some (93 + (i - 0x10) / 8) else none
  | 0x18 => if 0x10 ≤ i then some 108 else none
  | 0x19 => if i < 32 then some (80 + i / 8) else none
  | _ => none

/-- Whether a GET of a path is refused with ERR 21 GONE (R57, R102, R353). -/
def State.pathGone (s : State) (a : Nat) : Bool :=
  match pathInfo a with
  | none => true
  | some p =>
    (decide (s.judged = .drydock) && !(decide (a / 256 = 3) || decide (a / 256 = 4))) ||
      match p.access with
      | .ro => gone
      | .w1c => gone
      | _ => false
where
  gone : Bool :=
    (match pathDomain a with
      | some d => !s.domainOn d
      | none => false) ||
    (decide (a / 256 = 0x18) && decide (0x10 ≤ a % 256) &&
      (!bit (s.reg Reg.ainCfg) (a % 256 - 0x10) ||
        match s.pilot.ain[a % 256 - 0x10]? with
        | some (some _) => false
        | _ => true))

/-! ### Two-word values (R14, R415) -/

/-- The high word of the two-word value whose low word stands at an address (Table 17.8). -/
def highWordOf (a : Nat) : Option Nat :=
  let i := a % 256
  match a / 256 with
  | 0x05 => if i = 0 then some (a + 1) else none
  | 0x06 => if i = 2 then some (a + 1) else none
  | 0x0B => if i = 1 then some (a - 1) else if i = 12 then some (a + 1) else none
  | 0x11 => if i % 8 = 5 then some (a + 1) else none
  | 0x15 => if i % 16 = 11 then some (a + 1) else none
  | 0x17 => if 0x10 ≤ i ∧ i % 8 = 6 then some (a + 1) else none
  | 0x1B => if i = 0 then some (a + 1) else none
  | _ => none

/-- Whether an address is a high word. -/
def isHighWord (a : Nat) : Bool :=
  let i := a % 256
  match a / 256 with
  | 0x05 => decide (i = 1)
  | 0x06 => decide (i = 3)
  | 0x0B => decide (i = 0) || decide (i = 13)
  | 0x11 => decide (i % 8 = 6)
  | 0x15 => decide (i % 16 = 12)
  | 0x17 => decide (0x10 ≤ i) && decide (i % 8 = 7)
  | 0x1B => decide (i = 1)
  | _ => false

/-- The snapshots a source has taken. -/
def Manil.snaps (m : Manil) : Source → List (RegAddr × Word)
  | .chain => m.snapChain
  | .console => m.snapConsole

/-- A snapshot of a source is taken anew. -/
def State.takeSnap (s : State) (src : Source) (a : Nat) : State :=
  let put (l : List (RegAddr × Word)) : List (RegAddr × Word) :=
    (BitVec.ofNat 16 a, s.readPath src a) :: l.filter fun x => decide (x.1 ≠ BitVec.ofNat 16 a)
  match src with
  | .chain => { s with manil := { s.manil with snapChain := put s.manil.snapChain } }
  | .console => { s with manil := { s.manil with snapConsole := put s.manil.snapConsole } }

/-- A GET of one path by a source: the value, and the snapshot a low word freezes (R14). -/
def State.getPath (s : State) (src : Source) (a : Nat) : Word × State :=
  let v :=
    if isHighWord a then
      match (s.manil.snaps src).find? fun x => decide (x.1 = BitVec.ofNat 16 a) with
      | some x => x.2
      | none => s.readPath src a
    else s.readPath src a
  match highWordOf a with
  | some h => (v, s.takeSnap src h)
  | none => (v, s)

/-- A register's value as a reply gives it: signed where the register is (R180). -/
def shownValue (a : Nat) (v : Word) : Int :=
  match pathInfo a with
  | some p => if p.isSigned then v.toInt else v.toNat
  | none => v.toNat

/-! ### Clearing flags and counters -/

/-- Flags written as 1 are cleared (R10, R185). -/
def w1c {n : Nat} (flags : BitVec n) (v : Word) : BitVec n := flags &&& ~~~(BitVec.ofNat n v.toNat)

/-- A write to a W1C path (R10, R185). -/
def State.clearFlags (s : State) (a : Nat) (v : Word) : State :=
  let i := a % 256
  match a / 256 with
  | 0x03 => { s with power := { s.power with evt := w1c s.power.evt v } }
  | 0x05 => { s with clocks := { s.clocks with evt := w1c s.clocks.evt v } }
  | 0x06 => { s with chain := { s.chain with evt := w1c s.chain.evt v } }
  | 0x08 => { s with unit := { s.unit with evt := w1c s.unit.evt v } }
  | 0x09 => { s with motion := { s.motion with finEvt := w1c s.motion.finEvt v } }
  | 0x0A => { s with motion := { s.motion with encEvt := w1c s.motion.encEvt v } }
  | 0x0B => { s with motion := { s.motion with evt := w1c s.motion.evt v } }
  | 0x0C => { s with engine := { s.engine with evt := w1c s.engine.evt v } }
  | 0x0F => s.modBoost fun b => { b with evt := w1c b.evt v }
  | 0x11 => s.modSol ⟨i / 8 % 32, by omega⟩ fun ch => { ch with diag := w1c ch.diag v }
  | 0x12 => s.modBank ⟨i / 16 % 8, by omega⟩ fun b => { b with evt := w1c b.evt v }
  | 0x14 => if i = 3 then { s with pwm := { s.pwm with fltEvt := w1c s.pwm.fltEvt v } }
      else { s with pwm := { s.pwm with evt := w1c s.pwm.evt v } }
  | 0x15 => s.modValve ⟨i / 16 % 8, by omega⟩ fun y => { y with evt := w1c y.evt v }
  | 0x17 => { s with pilot := { s.pilot with evt := w1c s.pilot.evt v } }
  | 0x19 => { s with safety := { s.safety with evt := w1c s.safety.evt v } }
  | 0x1A => { s with recorder := { s.recorder with evt := w1c s.recorder.evt v } }
  | _ => s

/-- A counter that its bit clears. -/
def clr (v : Word) (k : Nat) (w : Word) : Word := if bit v k then 0 else w

/-- A port's counters cleared by six bits from `lo` (Table 6.9). -/
def PortState.clearBy (p : PortState) (v : Word) (lo : Nat) : PortState :=
  { p with eChar := clr v lo p.eChar, eCrc := clr v (lo + 1) p.eCrc, eAlign := clr v (lo + 2) p.eAlign
           eFrame := clr v (lo + 3) p.eFrame, eCkLoss := clr v (lo + 4) p.eCkLoss, eLink := clr v (lo + 5) p.eLink }

/-- The ECLR registers: CHN, MNL, ENC, XNG, SFP and REC (Tables 6.9, 7.9, 9.4, 10.9, 14.7, 15.7). -/
def isEclr (a : Nat) : Bool := [0x061F, 0x071F, 0x0A22, 0x0C1F, 0x1923, 0x1A1F].contains a

/-- A write to an ECLR register clears the counters whose bits are 1 (R167). -/
def State.clearCounters (s : State) (a : Nat) (v : Word) : State :=
  match a with
  | 0x061F => { s with chain := { s.chain with bow := s.chain.bow.clearBy v 0, stern := s.chain.stern.clearBy v 6
                                               eNlost := clr v 12 s.chain.eNlost } }
  | 0x071F => { s with manil := { s.manil with eCheck := clr v 0 s.manil.eCheck, eSyntax := clr v 1 s.manil.eSyntax
                                               eAddr := clr v 2 s.manil.eAddr, eCon := clr v 3 s.manil.eCon } }
  | 0x0A22 => { s with motion := { s.motion with
      encs := Vector.ofFn fun p => { s.motion.encs[p] with err := clr v p.val (s.motion.encs[p]).err } } }
  | 0x0C1F => { s with engine := { s.engine with eMiss := clr v 0 s.engine.eMiss, eLate := clr v 1 s.engine.eLate
                                                 eRcast := clr v 2 s.engine.eRcast } }
  | 0x1923 => { s with safety := { s.safety with
      pairs := Vector.ofFn fun p => { s.safety.pairs[p] with trips := clr v p.val (s.safety.pairs[p]).trips } } }
  | 0x1A1F => { s with recorder := { s.recorder with eLost := clr v 0 s.recorder.eLost, eAuth := clr v 1 s.recorder.eAuth } }
  | _ => s

/-! ### nATTN (R239) -/

/-- Whether a flag word has a flag its mask enables. -/
def asks {n : Nat} (flags : BitVec n) (mask : Word) : Bool := decide (BitVec.ofNat n mask.toNat &&& flags ≠ 0)

/-- Whether nATTN is driven low: some enabled flag of some block is 1 (R239); from a reset's assertion to the end of the boot it holds its
reset state (R28, R94). -/
def State.nAttnLow (s : State) : Bool :=
  let sol := s.reg Reg.solAttn
  let pwm := s.reg Reg.pwmAttn
  decide (s.phase = .running) &&
  (asks s.motion.evt (s.reg Reg.odoAttn) || asks s.motion.finEvt (s.reg Reg.finAttn)
    || asks s.motion.encEvt (s.reg Reg.encAttn) || asks s.engine.evt (s.reg Reg.xngAttn)
    || s.sol.chans.toList.any (fun ch => asks ch.diag sol)
    || s.sol.banks.toList.any (fun b => asks b.evt (sol >>> 8))
    || asks s.sol.boost.evt (sol >>> 12)
    || asks s.pwm.evt pwm || asks s.pwm.fltEvt (pwm >>> 13)
    || s.pwm.valves.toList.any (fun y => asks y.evt (s.reg Reg.mvAttn))
    || asks s.pilot.evt (s.reg Reg.pilAttn) || asks s.safety.evt (s.reg Reg.sfpAttn)
    || asks s.recorder.evt (s.reg Reg.recAttn))

end Sys2Proof.Machine
end

