-- ==== Sys2Proof/Machine/Clocks.lean ====
section
/-! DEFINITION. Clocks and chain time (chapter 5): the judging of oscillators, the reference of the CLPLL, the time modes,
and the loading of TIME sequences. -/
namespace Sys2Proof.Machine

open Sys2Proof

/-- What a meaning answers. -/
abbrev Result := Host.Outcome State Fault Refusal

/-- The clocks change. -/
def State.modClk (s : State) (f : Clocks → Clocks) : State := { s with clocks := f s.clocks }

/-- The next reference below CK: the XO once stable, else the IRC (R112). -/
def Clocks.lower (c : Clocks) : ClkRef := if c.xoStable then .xo else .irc

/-- CK is no longer the reference: the CLPLL turns to the next one, and CLK.EVT.UNLOCK is set where it leaves lock on CK
(R112, Table 5.9). -/
def State.dropCk (s : State) : State :=
  let s1 := if s.clocks.ref = .ck ∧ s.clocks.lock then s.clkFlag 8 else s
  s1.modClk fun c =>
    { c with rate := 0, ref := if c.ref = .ck then c.lower else c.ref, lock := if c.ref = .ck then false else c.lock }

/-- RATE_RECOGNISED (R112, R113, R128): CK becomes the reference, not yet locked to, and HOLDOVER turns into COAST. Code 0
stands for a CK at no rate of Table 5.2: it sets RATEBAD and is never the reference. -/
def execRateRecognised (code : Fin 16) (s : State) : Result :=
  .next <|
    if !s.clocksRun || (s.coreUp && s.chain.released) || decide (s.clocks.rate ≠ 0) then s
    else if code = 0 then s.clkFlag 6
    else s.modClk fun c =>
      { c with rate := code, lastRate := code, ref := .ck, lock := false, holdIrc := false
               mode := if c.mode = .holdover then .coast else c.mode }

/-- RATE_LOST (R113, R119): the rate is lost without 32 missing cycles; a set chain time goes to COAST. -/
def execRateLost (s : State) : Result :=
  .next <|
    if !s.clocksRun || decide (s.clocks.rate = 0) then s
    else s.dropCk.modClk fun c =>
      { c with aligned := false, trackUs := 0, mode := if c.mode = .track then .coast else c.mode }

/-- CLPLL_LOCK (R112, R119): LOCK is 1; with CK as the reference COAST and HOLDOVER turn into TRACK. -/
def execClpllLock (s : State) : Result :=
  .next <|
    if !s.clocksRun || s.clocks.lock then s
    else s.modClk fun c =>
      { c with lock := true
               mode := if c.ref = .ck ∧ (c.mode = .coast ∨ c.mode = .holdover) then .track else c.mode }

/-- XO_STABLE (R108, R112, R127): the XO is available, and is taken at once where the IRC is the reference; a holdover that so leaves the IRC is on
the second row of Table 5.8 from then on. -/
def execXoStable (s : State) : Result :=
  .next <|
    if !s.clocksRun || s.clocks.xoStable then s
    else s.modClk fun c =>
      { c with xoStable := true, holdIrc := false, trackUs := if c.holdIrc then 0 else c.trackUs, ref := if c.ref = .irc then .xo else c.ref
               lock := if c.ref = .irc then false else c.lock }

/-- XO_FAIL (R109, R112): XOSTABLE clears, a record is written, and what the XO fed turns to the IRC. -/
def execXoFail (s : State) : Result :=
  .next <|
    if !s.clocksRun || !s.clocks.xoStable then s
    else (s.modClk fun c =>
      { c with xoStable := false, ref := if c.ref = .xo then .irc else c.ref
               lock := if c.ref = .xo then false else c.lock
               holdIrc := decide (c.mode = .holdover) }).clkFailure 0 0x041

/-- Whether the IRC is judged at all (R111): not while CD08 runs on IRC ÷ 488 with the XO not stable. -/
def Clocks.judgesIrc (c : Clocks) : Bool := c.lxoOk || c.xoStable

/-- IRC_FAIL (R110): IRCOK clears; with XOSTABLE the safety samplers and the monitor move to the XO. Without it a
CLOCK_FAIL reset follows. -/
def execIrcFail (s : State) : Result :=
  .next <|
    if !s.checkerRuns || !s.clocks.ircOk || !s.clocks.judgesIrc then s
    else (s.modClk fun c =>
      { c with ircOk := false, safetyOnXo := c.xoStable }).clkFailure 1 0x042

/-- IRC_RECOVERY (R110): IRCOK is set and the domains return to their IRC sources. -/
def execIrcRecovery (s : State) : Result :=
  .next <|
    if !s.checkerRuns || s.clocks.ircOk || !s.clocks.judgesIrc then s
    else s.modClk fun c => { c with ircOk := true, safetyOnXo := false }

/-- LXO_FAIL (R111, R396): LXOOK clears, CD08 runs on IRC ÷ 488, and the calendar is marked DRIFT. Without a running IRC the failure goes
undetected, as in ANCHORED: the LXO has stopped all the same, and CD08 with it. -/
def execLxoFail (s : State) : Result :=
  .next <|
    if !s.clocks.lxoOk then s
    else if !s.checkerRuns || !s.clocks.ircOk then s.modClk fun c => { c with lxoStopped := true }
    else
      let s1 := (s.modClk fun c => { c with lxoOk := false, lxoStopped := true }).clkFailure 2 0x043
      { s1 with cal := { s1.cal with drift := true } }

/-- LXO_RECOVERY (R111): CD08 returns to the LXO; one whose stop was never judged only runs again. -/
def execLxoRecovery (s : State) : Result :=
  .next <|
    if s.clocks.lxoOk then s.modClk fun c => { c with lxoStopped := false }
    else if !s.checkerRuns || !s.clocks.ircOk then s
    else s.modClk fun c => { c with lxoOk := true, lxoStopped := false }

/-- Whether chain time stands at its last value, the next microsecond wrapping it. -/
def State.atWrap (s : State) : Bool := decide (s.time = BitVec.allOnes 48)

/-- THI_WRAP (R118): chain time continues from 0, where it has not yet, THIWRAP is set and a record is written. -/
def execThiWrap (s : State) : Result :=
  .next <|
    if !s.coreUp then s
    else if s.clocks.wrapDue then ((s.modClk fun c => { c with wrapDue := false }).clkEvt 7).record 0x046 63 0
    else if s.atWrap then (({ s with time := 0 } : State).clkEvt 7).record 0x046 63 0
    else s

/-! ### TIME sequences -/

/-- The time of `n` CK cycles at a rate, in 1/4096 µs, rounded. -/
def ckCycles (n code : Nat) : Nat := (2 * n * 4096 * rateRatio10 code + 4800) / 9600

/-- The cumulative hop delay for the upstream port, in 1/4096 µs (R122). -/
def Chain.hop (c : Chain) : Nat :=
  match c.upPort with
  | .bow => c.hopB
  | .stern => c.hopS

/-- A difference of chain times in 1/4096 µs, taken modulo the range of the counter and signed. -/
def signedDiff (a b : Int) : Int :=
  let m : Int := 2 ^ 60
  let d := (a - b) % m
  if d < 2 ^ 59 then d else d - m

/-- A chain time moved by a signed number of microseconds. -/
def moveTime (t : ChainTime) (d : Int) : ChainTime := t + BitVec.ofInt 48 d

/-- The latched (odometer, time) pairs, and the stamps that become pairs, move with chain time (R124). -/
def Motion.shift (m : Motion) (d : Int) : Motion :=
  { m with
    pairs := m.pairs.map fun p => { p with t := moveTime p.t d }
    encs := m.encs.map fun e => { e with stamp := moveTime e.stamp d }
    speed := m.speed.map fun f => { f with t := moveTime f.t d }
    speedPrev := m.speedPrev.map fun f => { f with t := moveTime f.t d } }

/-- A channel's scheduled times move with chain time: the decided ts and the landing time (R124). -/
def XChan.shift (x : XChan) (d : Int) : XChan :=
  let move (k : Current) : Current := { k with ts := moveTime k.ts d, landAt := k.landAt.map (moveTime · d) }
  { x with cur := x.cur.map move, decided := x.decided.map move }

/-- The phase ends and stamps of a solenoid channel move with chain time (R124); the end of a pulse on-interval is on the
grid of chain time and does not (R295). -/
def SolChan.shift (ch : SolChan) (d : Int) : SolChan :=
  { ch with boostAt := moveTime ch.boostAt d, phaseEnd := moveTime ch.phaseEnd d, dip := ch.dip.map (moveTime · d)
            offAt := ch.offAt.map (moveTime · d) }

/-- Every chain time that is scheduled moves with a step (R124). -/
def State.shiftSchedules (s : State) (d : Int) : State :=
  { s with
    engine := { s.engine with chans := s.engine.chans.map (XChan.shift · d) }
    sol := { s.sol with
      chans := s.sol.chans.map (SolChan.shift · d)
      banks := s.sol.banks.map fun b => { b with waitUntil := b.waitUntil.map (moveTime · d) } }
    pwm := { s.pwm with valves := s.pwm.valves.map fun y =>
      { y with run := y.run.map fun r => { r with timedEnd := r.timedEnd.map (moveTime · d) } } } }

/-- A value held to the range of CLK.TERR. -/
def terrOf (ns : Int) : Word := z24 (clampZ (-8388607) 8388607 ns)

/-- How many parts the model takes a microsecond of chain time to: 390 625 make 1/4096 µs, 16 make the 0.01 ppm of one microsecond, and
16 000 000 make what one CD00 cycle in 100 slews. -/
def timeUnit : Nat := 1600000000

/-- Chain time takes a value given in 1/4096 µs at the microsecond boundary. -/
def State.setTime4096 (s : State) (v : Int) : State :=
  let w := (v % 2 ^ 60).toNat
  { s with time := BitVec.ofNat 48 (w / 4096)
           clocks := { s.clocks with timeFrac := 390625 * (w % 4096), slew := 0 } }

/-- Chain time as the counter holds it, in parts of a microsecond. -/
def State.heldTime (s : State) : Int := s.now * timeUnit + s.clocks.timeFrac

/-- Chain time has jumped: what is due at the new time has not been done at it, though the old time had the same value. -/
def State.forgetMarks (s : State) : State :=
  { s with
    engine := { s.engine with lastWatch := none }
    sol := { s.sol with chans := s.sol.chans.map fun ch => { ch with lastStart := none } }
    pilot := { s.pilot with
      loops := s.pilot.loops.map fun x => { x with lastAt := none }
      traces := s.pilot.traces.map fun x => { x with lastAt := none } } }

/-- Loading a valid sequence (R122, R124): `v` is chain time at this microsecond's boundary by the sequence, in 1/4096 µs. The difference is
told to the nearest ns and moves pairs and schedules by the nearest whole microsecond, halves away from zero (DESIGN CHOICE, log 31). The
schedules move with the load in UNSET too, so that a run a handover has timed ends after its time (DEDUCED, log 78). -/
def State.loadTime (s : State) (v : Int) : State :=
  let d := signedDiff v (roundDiv s.heldTime 390625)
  let ns := terrOf (roundDiv (d * 1000) 4096)
  let us := roundDiv d 4096
  let s1 := s.modClk fun c => { c with terr := ns, aligned := true, mode := .track }
  if s.clocks.mode ≠ .unset ∧ d.natAbs ≤ 2 * 4096 then s1.modClk fun c => { c with slew := 390625 * d }
  else
    let s2 := (s1.setTime4096 v).forgetMarks
    let s3 := ({ s2 with motion := s2.motion.shift us } : State).shiftSchedules us
    if s.clocks.mode = .unset then s3 else (s3.clkEvt 4).record 0x045 63 ns

/-- TIME_SEQUENCE (R122 to R124): the sequence after K.0C, complete `sub`/256 µs into the present microsecond. It is
discarded or loaded, and forwarded unchanged in every case. -/
def execTimeSequence (seq : SeqArrival) (sub : Byte) (s : State) : Result :=
  .next <|
    s.receive s.dnIn (seq.wire 0x0C) fun s =>
      let p := s.chain.upPort
      let s1 := s.sendDn (seq.wire 0x0C)
      match seq.data 9 with
      | none => if seq.isWhole 9 then (s1.crcError p).clkEvt 5 else s1.frameError p
      | some data =>
        if leNat (data.drop 7) ≠ s.clocks.rate.val then s1.clkEvt 6
        else if s.clocks.ref ≠ .ck ∨ !s.clocks.lock ∨ !s.hopValid then s1
        else
          let t : Nat := leNat (data.take 7) * 16
          let at4096 : Int := t + s.chain.hop + ckCycles 90 s.clocks.rate.val
          s1.loadTime (at4096 - 16 * sub.toNat)

end Sys2Proof.Machine
end

