-- ==== Sys2Proof/Machine/Motion.lean ====
section
/-! DEFINITION. Ground motion and position (chapter 9): pulse inputs, encoder ports, the odometer and its direction, latched
pairs, and the estimates of velocity, acceleration and yaw rate. -/
namespace Sys2Proof.Machine

open Sys2Proof

/-- The motion block changes. -/
def State.modMotion (s : State) (f : Motion → Motion) : State := { s with motion := f s.motion }

/-! ### Sources (R230, R231, R237, R243) -/

/-- The source that drives the odometer: the local one a STRANDED unit took, else that of ODO.CFG (R207, R230). -/
def State.odoSource (s : State) : Nat := (s.motion.switched).getD (fld (s.reg Reg.odoCfg) 0 4)

/-- Whether the input's QUAD bit forms a pair with the next one (R224). -/
def State.quad (s : State) (n : Nat) : Bool := decide (n % 2 = 0) && bit (s.reg (Reg.finCfg n)) 15

/-- The source is a single FIN input (R233, R237). -/
def State.singleFin (s : State) : Bool :=
  decide (1 ≤ s.odoSource) && decide (s.odoSource ≤ 8) && !s.quad (s.odoSource - 1)

/-- The use of SPEED values begins: ODO.SPDTMO counts from now (R243). -/
def Motion.useSpeed (m : Motion) (clk : Nat) : Motion := { m with speedSince := clk, speedTold := false }

/-- A preset that waited is taken out. -/
def Motion.takePreset (m : Motion) : Motion := { m with presetDue := none }

/-- Whether SPEED lines are in use as odometer, yaw or direction source (R243). -/
def State.speedInUse (s : State) : Bool :=
  decide (s.odoSource = 13) || decide (fld (s.reg Reg.odoCfg) 11 3 = 5)
    || (s.singleFin && decide (fld (s.reg Reg.odoCfg) 4 2 = 3))

/-- The filtered level of an input, INV applied. -/
def State.finLevel (s : State) (n : Fin 8) : Bool := xor (s.motion.fins[n]).level (bit (s.reg (Reg.finCfg n)) 14)

/-- The v of the last SPEED line where SPEED values are used, 0 once stale (R243). -/
def State.speedV (s : State) : Int :=
  match s.motion.speed with
  | some f => if s.motion.speedStale then 0 else f.v
  | none => 0

/-! ### The odometer (R233 to R238) -/

/-- ODO.STAT.DIR takes a value: a change sets DIRCHG, is recorded and sent (R238). -/
def State.setDir (s : State) (rev : Bool) : State :=
  if s.motion.dirRev = rev then s
  else (((s.modMotion fun m => { m with dirRev := rev, turn := m.pos }).odoEvt 2).record 0x103 63 (w24 (b2n rev))).notice
    [.word "DIRECTION", .word (if rev then "REV" else "FWD")]

/-- A difference of positions, modulo 2^40, signed. -/
def posDiff (a b : BitVec 40) : Int := (a - b).toInt

/-- The measured direction of a source that moves itself, with the hysteresis of DIRHYS (R238). -/
def State.trackDir (s : State) : State :=
  let m := s.motion
  let back : Int := if m.dirRev then posDiff m.pos m.turn else posDiff m.turn m.pos
  if back < 0 then s.modMotion fun m => { m with turn := m.pos }
  else if 0 < back ∧ (65536 * fld (s.reg Reg.odoCfg) 14 8 : Int) ≤ back then s.setDir !m.dirRev
  else s

/-- The direction of a single FIN source, which changes at once (R237, R238); the flag stands in PD101. -/
def State.followDir (s : State) : State :=
  if !s.singleFin || !s.domainOn 101 then s
  else match fld (s.reg Reg.odoCfg) 4 2 with
    | 0 => s.setDir false
    | 1 => s.setDir true
    | 2 => s.setDir (s.finLevel ⟨fld (s.reg Reg.odoCfg) 7 3 % 8, by omega⟩)
    | _ => if s.speedV = 0 then s else s.setDir (decide (s.speedV < 0))

/-- The odometer moves by a number of 1/65536 mm; a wrap sets its flag and is recorded (R234). -/
def State.moveOdo (s : State) (d : Int) : State :=
  let p : Int := s.motion.pos.toNat + d
  let s1 := s.modMotion fun m => { m with pos := BitVec.ofInt 40 p }
  let s2 :=
    if 2 ^ 40 ≤ p then (s1.odoEvt 0).record 0x101 63 0
    else if p < 0 then (s1.odoEvt 1).record 0x101 63 1
    else s1
  if s.singleFin then s2.modMotion fun m => { m with turn := m.pos } else s2.trackDir

/-- ODO.DPP in 1/65536 mm (R233). -/
def State.dpp (s : State) : Int :=
  s.regN Reg.odoDpp * (if bit (s.reg Reg.odoCfg) 10 then 16 else 1)

/-- One pair of odometer and stamp is latched; the 16 newest are kept (R240). -/
def State.latchPair (s : State) (stamp : ChainTime) : State :=
  s.modMotion fun m =>
    { m with pairs := ({ pos := m.pos, t := stamp } : OdoPair) :: m.pairs.take 15, lastPair := s.clk, moving := true }

/-- A step of the selected source: the odometer moves and a pair is latched, while PD101 is on (R233, R240). -/
def State.sourceStep (s : State) (d : Int) (stamp : ChainTime) : State :=
  if s.domainOn 101 then (s.moveOdo d).latchPair stamp else s

/-! ### Pulse inputs (R221 to R224) -/

/-- An edge that measures the period: the first one after a stop starts a measurement, the next ends it (R223). -/
def FinState.measure (f : FinState) (cycles : Nat) : FinState :=
  if f.fresh then { f with fresh := false, stopped := false }
  else { f with period := w24 (Nat.min 0xFFFFFF cycles), measured := true, stopped := false }

/-- The even input of the couple an input stands in. -/
def evenOf (n : Fin 8) : Fin 8 := ⟨2 * (n.val / 2), by omega⟩

/-- The odd input of the couple an input stands in. -/
def oddOf (n : Fin 8) : Fin 8 := ⟨2 * (n.val / 2) + 1, by omega⟩

/-- The other input of the couple. -/
def mateOf (n : Fin 8) : Fin 8 := if n = evenOf n then oddOf n else evenOf n

/-- An accepted edge of an input of a quadrature pair (R224). -/
def State.quadEdge (s : State) (n : Fin 8) (stamp : ChainTime) (cycles : Nat) (both : Bool) : State :=
  let e := evenOf n
  let flip (f : FinState) : FinState := { f with level := !f.level, edgeClk := some s.clk }
  let s1 := s.modFin n flip
  let s2 := if both then s1.modFin (mateOf n) flip else s1
  let a := s2.finLevel e
  let b := s2.finLevel (oddOf n)
  let s3 := if a && !s.finLevel e then s2.modFin e (·.measure cycles) else s2
  if both then s3.modMotion fun m => { m with finEvt := raise m.finEvt (8 + n.val / 2) }
  else
    let up := xor (if n = e then xor a b else a == b) (bit (s.reg (Reg.finCfg e)) 16)
    let s4 := s3.modFin e fun f => { f with count := if up then f.count + 1 else f.count - 1, qdown := !up }
    if s.odoSource = e.val + 1 then s4.sourceStep (if up then s.dpp else -s.dpp) stamp else s4

/-- An accepted edge of an input of its own: it counts where EDGE selects its polarity (R223, R233). -/
def State.singleEdge (s : State) (n : Fin 8) (stamp : ChainTime) (cycles : Nat) : State :=
  let s1 := s.modFin n fun f => { f with level := !f.level, edgeClk := some s.clk }
  let rising := s1.finLevel n
  let selected := match fld (s.reg (Reg.finCfg n)) 12 2 with
    | 0 => rising
    | 1 => !rising
    | _ => true
  if !selected then s1
  else
    let s2 := s1.modFin n fun f => { f.measure cycles with count := f.count + 1 }
    if s.odoSource = n.val + 1 then s2.sourceStep (if s.motion.dirRev then -s.dpp else s.dpp) stamp else s2

/-- Whether an input's filter cannot have accepted an edge now (R221). -/
def State.finBars (s : State) (n : Fin 8) : Bool := filterBars (s.reg (Reg.finCfg n)) (s.motion.fins[n]).edgeClk s.clk

/-- FIN_EDGE (R221 to R224, R233, R237, R240): input `n` accepts the pin level `level`; `stamp` is the time of the first of
its N samples, `cycles` the sample cycles since the last edge of the polarity that measures, `partnerToo` that the other
input of its pair changed in the same sample. -/
def execFinEdge (n : Fin 8) (level : Bool) (stamp : ChainTime) (cycles : Nat) (partnerToo : Bool) (s : State) : Result :=
  .next <|
    if !s.coreUp || !s.domainOn (72 + n.val) || (s.motion.fins[n]).level == level || s.finBars n then s
    else if s.quad (evenOf n).val then (s.quadEdge n stamp cycles (partnerToo && !s.finBars (mateOf n))).followDir
    else (s.singleEdge n stamp cycles).followDir

/-- FIN_STOPPED (R223): the running count exceeds 0xFFFFFF. -/
def execFinStopped (n : Fin 8) (s : State) : Result :=
  .next <|
    if !s.coreUp || !s.domainOn (72 + n.val) || (s.motion.fins[n]).stopped then s
    else
      let s1 := s.modFin n fun f => { f with period := 0xFFFFFF, stopped := true, fresh := true }
      if (s.motion.fins[n]).measured then s1.modMotion fun m => { m with finEvt := raise m.finEvt n.val } else s1

/-! ### Encoder ports (R225 to R229, R246) -/

/-- ENCp.CFG.WIDTH and ROLE in force. -/
def State.encWidth (s : State) (p : Fin 4) : Nat := fld (s.reg (Reg.encCfg p)) 0 5
/-- ENCp.CFG.ROLE: 0 OFF, 1 DIST, 2 ARTIC, 3 MONITOR. -/
def State.encRole (s : State) (p : Fin 4) : Nat := fld (s.reg (Reg.encCfg p)) 19 2

/-- Gray code to binary (R226): bit k of the result is the exclusive or of the bits from k up. -/
def grayToBinary : Nat → Nat → Nat
  | 0, g => g
  | k + 1, g => grayToBinary k g ^^^ (g / 2 ^ (k + 1))

/-- A difference of words modulo 2^w, signed (R233, R245). -/
def wordDiff (w a b : Nat) : Int :=
  let m : Int := 2 ^ w
  let d := ((a : Int) - b) % m
  if 2 * d < m then d else d - m

/-- ENCODER_READ (R225, R227, R229): a read falls due; one that falls due while the last has not ended is skipped. -/
def execEncoderRead (p : Fin 4) (s : State) : Result :=
  .next <|
    if !s.coreUp || !s.domainOn (68 + p.val) || decide (s.encRole p = 0) || decide (s.clk < (s.motion.encs[p]).due) then s
    else s.modEnc p fun e =>
      let e1 := { e with due := s.clk + 10 * s.regN (Reg.encPer p) }
      if e.reading then e1 else { e1 with reading := true, fall := s.clk, stamp := s.time }

/-- Why a read fails: 0 NOSTART, 1 TAIL, 2 STUCK, 3 JUMP (R225). -/
def State.readFault (s : State) (p : Fin 4) (r : EncoderRead) (word : Nat) : Option Nat :=
  let e := s.motion.encs[p]
  let jump := s.regN (Reg.encJump p)
  if !r.startHigh then some 0
  else if r.tail then some 1
  else if !r.endHigh then some 2
  else if e.valid ∧ jump ≠ 0 ∧ jump < (wordDiff (s.encWidth p) word e.word.toNat).natAbs then some 3
  else none

/-- A failed read (R226, R246). -/
def State.failRead (s : State) (p : Fin 4) (cause : Nat) : State :=
  let e := s.motion.encs[p]
  let s1 := (s.modEnc p fun x => { x with reading := false, err := satInc x.err, fails := x.fails + 1 }).modMotion fun m =>
    { m with encEvt := raise m.encEvt (4 * cause + p.val) }
  if e.fails + 1 < 3 ∨ e.fault then s1
  else
    let s2 := (s1.modEnc p fun x => { x with fault := true }).modMotion fun m =>
      { m with encEvt := raise m.encEvt (16 + p.val) }
    if s.encRole p = 1 then
      ((s2.odoEvt 4).record 0x104 p.val 0).notice [.word "MOTION", .word "FAULT", .word ("ENC" ++ toString p.val)]
    else s2

/-- A good read (R225, R226, R233, R240). -/
def State.goodRead (s : State) (p : Fin 4) (word : Nat) : State :=
  let e := s.motion.encs[p]
  let d := if e.valid then wordDiff (s.encWidth p) word e.word.toNat else 0
  let s1 := s.modEnc p fun x =>
    { x with reading := false, word := w24 word, time := tlo x.stamp, valid := true, fault := false, fails := 0
             decreasing := if d = 0 then x.decreasing else decide (d < 0) }
  if s.encRole p = 1 ∧ s.odoSource = 9 + p.val then
    s1.sourceStep (s.dpp * (if bit (s.reg (Reg.encCfg p)) 22 then -d else d)) e.stamp
  else s1

/-- ENCODER_READ_END (R225, R226): what the port sampled. -/
def execEncoderReadEnd (p : Fin 4) (r : EncoderRead) (s : State) : Result :=
  .next <|
    if !s.coreUp || !s.domainOn (68 + p.val) || !(s.motion.encs[p]).reading then s
    else
      let w := s.encWidth p
      let raw := r.bits.toNat % 2 ^ w
      let word := if bit (s.reg (Reg.encCfg p)) 5 then grayToBinary (w - 1) raw else raw
      match s.readFault p r word with
      | some cause => s.failRead p cause
      | none => s.goodRead p word

/-! ### Ratios -/

/-- The sum of two ratios. -/
def Frac.add (a b : Frac) : Frac := { num := a.num * b.den + b.num * a.den, den := a.den * b.den }

/-- The difference of two ratios. -/
def Frac.sub (a b : Frac) : Frac := { num := a.num * b.den - b.num * a.den, den := a.den * b.den }

/-- A ratio times a fraction of integers. -/
def Frac.scale (a : Frac) (n : Int) (d : Nat) : Frac := { num := a.num * n, den := a.den * d }

/-- Whether a ratio lies below another. -/
def Frac.lt (a b : Frac) : Bool := decide (a.num * b.den < b.num * a.den)

/-- The magnitude of a ratio. -/
def Frac.abs (a : Frac) : Frac := { a with num := a.num.natAbs }

/-- A ratio divided by its common factor, so that it does not grow. -/
def Frac.reduce (a : Frac) : Frac :=
  let g := Nat.gcd a.num.natAbs a.den
  if g ≤ 1 then a else { num := a.num / g, den := a.den / g }

/-! ### Estimates (R242, R243, R245) -/

/-- Signed microseconds from `b` to `a`. -/
def timeDiff (a b : ChainTime) : Int := (a - b).toInt

/-- The velocity between two pairs, in mm/s. -/
def pairVelocity (p q : OdoPair) : Frac :=
  if timeDiff p.t q.t ≤ 0 then {} else { num := posDiff p.pos q.pos * 1000000, den := 65536 * (timeDiff p.t q.t).toNat }

/-- The pairs from the newest one whose stamp lies at least `win` µs before `t0` (R242 step 2). -/
def windowFrom (t0 : ChainTime) (win : Int) : List OdoPair → List OdoPair
  | [] => []
  | p :: rest => if win ≤ timeDiff t0 p.t then p :: rest else windowFrom t0 win rest

/-- The pair Pj of a pair P0 among the earlier ones (R242 step 2). -/
def windowPair (p0 : OdoPair) (earlier : List OdoPair) (win : Int) : Option OdoPair :=
  let pick := match windowFrom p0.t win earlier with
    | p :: _ => some p
    | [] => earlier.getLast?
  match pick with
  | some p => if p.t ≠ p0.t then some p else earlier.find? fun q => decide (0 < timeDiff p0.t q.t)
  | none => none

/-- A clamp of an acceleration to ±AMAX, with whether it acted (R242 step 3). -/
def clampAcc (amax : Nat) (a : Frac) : Frac × Bool :=
  if Frac.lt { num := amax } a then ({ num := amax }, true)
  else if a.lt { num := -(amax : Int) } then ({ num := -(amax : Int) }, true)
  else (a, false)

/-- The acceleration at the newest pair, before its clamp (R242 step 3). -/
def accOf (p0 : OdoPair) (earlier : List OdoPair) (win : Int) (vw : Frac) : Frac :=
  match windowFrom p0.t win earlier with
  | [] => {}
  | [_] => {}
  | p' :: rest =>
    match windowPair p' rest win with
    | none => {}
    | some q =>
      let dv := vw.sub (pairVelocity p' q)
      { num := dv.num * 1000000, den := dv.den * (timeDiff p0.t p'.t).toNat }

/-- Velocity and acceleration from the pairs at a time, and whether the clamp acted (R242 steps 1 to 5). -/
def estimate (pairs : List OdoPair) (now : ChainTime) (winUs amax : Nat) : Frac × Frac × Bool :=
  match pairs with
  | p0 :: p1 :: rest =>
    match windowPair p0 (p1 :: rest) winUs with
    | none => ({}, {}, false)
    | some pj =>
      let vw := pairVelocity p0 pj
      let (a, clamped) := clampAcc amax (accOf p0 (p1 :: rest) winUs vw)
      let v := vw.add (a.scale (timeDiff p0.t pj.t) 2000000)
      let late := timeDiff now p0.t
      let limit : Frac := { num := (posDiff p0.pos p1.pos).natAbs * 1000000, den := 65536 * late.toNat }
      if timeDiff p0.t p1.t < late ∧ limit.lt v.abs then
        ({ limit with num := if v.num < 0 then -limit.num else limit.num }, {}, clamped)
      else (v.reduce, a.reduce, clamped)
  | _ => ({}, {}, false)

/-- The acceleration of the SPEED source: from the last two SPEED lines (R243). -/
def State.speedAcc (s : State) : Frac × Bool :=
  match s.motion.speed, s.motion.speedPrev with
  | some f, some g =>
    if f.t = g.t then (s.motion.acc, false)
    else clampAcc (s.regN Reg.odoAmax) { num := (f.v - g.v) * 1000000, den := (timeDiff f.t g.t).natAbs }
  | _, _ => ({}, false)

/-- π in units of 2^-60. -/
def piQ60 : Int := 3622009729038561421

/-- A product in units of 2^-60. -/
def mulQ60 (a b : Int) : Int := (a * b) / 2 ^ 60

/-- The terms of the sine series from the term `t` of index `k` (term k+1 = -term k · x²/((2k)(2k+1))). -/
def sineSeries (x2 : Int) : Nat → Nat → Int → Int
  | 0, _, _ => 0
  | fuel + 1, k, t => t + sineSeries x2 fuel (k + 1) (-(mulQ60 t x2) / ((2 * k) * (2 * k + 1)))

/-- The sine of 2π·e/2^w, in units of 2^-60, to better than 2^-50. -/
def sineQ60 (w : Nat) (e : Int) : Int :=
  let x := 2 * piQ60 * e / 2 ^ w
  sineSeries (mulQ60 x x) 20 1 x

/-- The yaw rate in mrad/s, and whether its encoder port has a fault or no word, or has left its role ARTIC (R229, R245). -/
def State.yawOf (s : State) (v : Frac) : Frac × Bool :=
  match fld (s.reg Reg.odoCfg) 11 3 with
  | 0 => ({}, false)
  | 5 => match s.motion.speed with
    | some f => ({ num := if s.motion.speedStale then 0 else f.w }, false)
    | none => ({}, false)
  | k =>
    let p : Fin 4 := ⟨(k - 1) % 4, by omega⟩
    let e := s.motion.encs[p]
    if e.fault || !e.valid || !s.domainOn (68 + p.val) || decide (s.encRole p ≠ 2) then ({}, true)
    else
      let w := s.encWidth p
      let d := wordDiff w e.word.toNat (s.regN (Reg.encZero p))
      let d' := if bit (s.reg (Reg.encCfg p)) 22 then -d else d
      ((v.scale (1000 * sineQ60 w d') (2 ^ 60 * s.regN Reg.odoHitch)).reduce, false)

/-- Whether no pair has arrived for ODO.STOPT (R242 step 6). -/
def State.stopDue (s : State) : Bool := decide (s.motion.lastPair + 1000 * s.regN Reg.odoStopt ≤ s.clk)

/-- The estimates of a watch (R242, R243, R245). -/
def State.estimates (s : State) : State :=
  let m := s.motion
  let (v, a, clamped, moving) :=
    if s.odoSource = 13 then
      if m.speedRestart || m.speedStale then (({} : Frac), ({} : Frac), false, false)
      else
        let (a, c) := s.speedAcc
        (({ num := s.speedV } : Frac), a, c, decide (s.speedV ≠ 0))
    else if s.odoSource = 0 ∨ !m.moving ∨ s.stopDue then ({}, {}, false, m.moving && !s.stopDue)
    else
      let (v, a, c) := estimate m.pairs s.time (1000 * s.regN Reg.odoVwin) (s.regN Reg.odoAmax)
      (v, a, c, true)
  let (w, fault) := s.yawOf v
  s.modMotion fun m =>
    let e1 := if clamped then raise m.evt 5 else m.evt
    { m with vel := v, acc := a, yaw := w, moving := moving, evt := if fault then raise e1 4 else e1 }

/-- The SPEED source's step at a watch: v × 100 µs, what is below 1/65536 mm kept as a remainder (R233). -/
def State.speedStep (s : State) : State :=
  if s.odoSource ≠ 13 ∨ s.motion.speedRestart then s
  else
    let total := s.motion.rem + s.speedV * 65536
    if s.speedV = 0 then s
    else (s.modMotion fun m => { m with rem := total % 10000 }).moveOdo (total / 10000)

/-- ODO_STOP (R242 step 6): no pair has arrived for ODO.STOPT. -/
def execOdoStop (s : State) : Result :=
  .next <|
    if !s.coreUp || !s.motion.moving || decide (s.odoSource = 13) || !s.stopDue then s
    else s.modMotion fun m => { m with vel := {}, acc := {}, moving := false }

/-- Whether ODO.SPDTMO has passed without a SPEED line while SPEED values are in use, and this has not been told (R243). -/
def State.staleDue (s : State) : Bool :=
  s.coreUp && s.domainOn 101 && s.speedInUse && !s.motion.speedTold
    && decide (s.motion.speedSince + 1000 * s.regN Reg.odoSpdtmo ≤ s.clk)

/-- SPEED_STALE (R243): ODO.SPDTMO has passed without a SPEED line while SPEED values are in use;
v, a and ω from them are then taken as 0 (R342). -/
def execSpeedStale (s : State) : Result :=
  .next <|
    if !s.staleDue then s
    else
      let s1 := s.modMotion fun m => { m with speedStale := true, speedTold := true, moving := m.moving && decide (s.odoSource ≠ 13) }
      let s2 := if s.odoSource = 13 then s1.modMotion fun m => { m with vel := {}, acc := {}, yaw := {} }
        else if fld (s.reg Reg.odoCfg) 11 3 = 5 then s1.modMotion fun m => { m with yaw := {} }
        else s1
      ((s2.odoEvt 3).record 0x105 63 0).notice [.word "SPEED", .word "STALE"]

/-- A SPEED line's effect (R240, R243, R244): as the odometer's source it moves while v is not 0. -/
def State.takeSpeed (s : State) (v w : Int) : State :=
  let s1 := s.modMotion fun m =>
    { m with speedPrev := if m.speedRestart then none else m.speed, speed := some { v := v, w := w, t := s.time }
             speedStale := false, speedTold := false, speedRestart := false, speedSince := s.clk }
  (if s.odoSource = 13 ∧ s.domainOn 101 then
    (s1.latchPair s.time).modMotion fun m => { m with moving := decide (v ≠ 0) }
  else s1).followDir

/-- The switch to the local source of a unit that becomes STRANDED on helm SPEED frames (R207, R231, R247): a source whose
domain is off counts as none. -/
def State.switchSource (s : State) : State :=
  if fld (s.reg Reg.odoCfg) 0 4 ≠ 13 then s
  else
    let k := fld (s.reg Reg.strSrc) 0 4
    let on := if 1 ≤ k ∧ k ≤ 8 then s.domainOn (71 + k) else if 9 ≤ k ∧ k ≤ 12 then s.domainOn (59 + k) else false
    (s.modMotion fun m => { m.restart with switched := some (if on then k else 0), turn := m.pos, rem := 0 }).followDir

end Sys2Proof.Machine
end

