-- ==== Sys2Proof/Machine/Crossings.lean ====
section
/-! DEFINITION. Crossings and cast-off (chapter 10): the watch and its lanes, projection and lead, casts, landings, the
learned latency, and turn compensation. -/
namespace Sys2Proof.Machine

open Sys2Proof

/-! ### Projection (R256, R257) -/

/-- Newton's steps towards the integer square root, from above. -/
def sqrtSteps (n : Nat) : Nat → Nat → Nat
  | 0, x => x
  | fuel + 1, x =>
    let y := (x + n / x) / 2
    if y < x then sqrtSteps n fuel y else x

/-- The integer square root. -/
def isqrt (n : Nat) : Nat := if n = 0 then 0 else sqrtSteps n 200 (2 ^ (Nat.log2 n / 2 + 1))

/-- What a head is to the engine at a watch (Table 10.3). -/
inductive HeadCase where
  | behind
  | projected
  | waits
deriving DecidableEq, Repr

/-- Table 10.3, with d = 0 reached in the permitted direction, at rest, or under DIR 2 (R256); `sign` is that of v. -/
def headCase (dir : Nat) (d : Int) (sign : Int) : HeadCase :=
  match dir with
  | 0 => if d < 0 then .behind else if sign = 1 ∨ (d = 0 ∧ sign = 0) then .projected else .waits
  | 1 => if 0 < d then .behind else if sign = -1 ∨ (d = 0 ∧ sign = 0) then .projected else .waits
  | _ => if d = 0 ∨ 0 < sign * d then .projected else .waits

/-- τ = 2D / (V + √(V² + 2AD)) in 1/256 µs, none where V² + 2AD < 0 (R257); D in 1/65536 mm, V and A in mm/s and
mm/s². -/
def arrivalTau (dist : Nat) (v a : Frac) : Option Nat :=
  if dist = 0 then some 0
  else
    let m : Nat := v.den * v.den * a.den * 65536
    let n : Int := v.num * v.num * a.den * 65536 + 2 * a.num * dist * v.den * v.den
    if n < 0 then none
    else
      let k : Nat := 2 ^ 40
      let root := isqrt (n.toNat * m * k * k)
      let s := m * k
      let den := 65536 * (v.num.natAbs * s + root * v.den)
      some ((2 * (2 * dist * 256000000 * v.den * s) + den) / (2 * den))

/-- The newest pair, or the odometer now where none is held (R256). -/
def State.newestPair (s : State) : OdoPair :=
  match s.motion.pairs with
  | p :: _ => p
  | [] => { pos := s.motion.pos, t := s.time }

/-- The signed distance of a target ahead of a position, in 1/65536 mm, modulo 2^24 mm (R256). -/
def targetDistance (target : Word) (pos : BitVec 40) : Int := posDiff (target.setWidth 40 <<< 16) pos

/-! ### Lead (R259, R260) -/

/-- The bank-wait bound of a channel: the BOOST times of the other channels of its bank that can request boost (R260). -/
def State.bankWait (s : State) (c : Fin 32) : Nat :=
  (([0, 1, 2, 3] : List (Fin 4)).map fun k =>
    let o := chanOf (bankOf c) k
    if o = c ∨ !s.domainOn o.val ∨ s.isOdd o then 0 else s.tboost o).sum

/-- The lead of a channel for an action, in 1/8 µs (Table 10.4, R270). -/
def State.lead8 (s : State) (c : Fin 40) (act : CrossAction) : Nat :=
  match chanKind c with
  | .inr _ => 8 * (s.lat c + s.regN (Reg.lag c))
  | .inl i =>
    match act with
    | .close => 8 * (s.clat c + s.regN (Reg.lag c))
    | _ => (s.engine.chans[c]).l8 + 8 * (s.regN (Reg.lag c) + if s.xcfgBit c 1 then s.bankWait i else 0)

/-! ### Decisions of a watch (R258, R261, R264, R218) -/

/-- The head leaves a manifest. -/
def State.popHead (s : State) (c : Fin 40) : State := s.modX c fun x => { x with manifest := x.manifest.drop 1 }

/-- A distance in whole millimetres, rounded. -/
def mmText (d : Int) : Nat := (2 * d.natAbs + 65536) / 131072

/-- A head found behind with LATE 0 is missed (R258). -/
def State.missHead (s : State) (c : Fin 40) (x : Crossing) (d : Int) : State :=
  let s1 := s.popHead c
  let s2 := { s1 with engine := { s1.engine with evt := raise s1.engine.evt 0, eMiss := satInc s1.engine.eMiss } }
  (s2.record 0x141 c.val x.ident (some (w24 (mmText d)))).notice
    [.word "MISSED", .num c.val, .num x.ident.toNat, .num (mmText d)]

/-- A crossing that reaches cast on a held channel: its action becomes the scheduled level (R218). -/
def State.holdHead (s : State) (c : Fin 40) (x : Crossing) : State :=
  ((((s.popHead c).modX c fun y => { y with level := x.level, sched := true, heldLevel := true, muteLevel := true }).record 0x145 c.val
    x.ident)).notice [.word "SHUT", .word "HELD", .num c.val, .num x.ident.toNat]

/-- The head is cast: it leaves the manifest and is decided with its ts (R263). -/
def State.decideHead (s : State) (c : Fin 40) (x : Crossing) (ts : ChainTime) : State :=
  s.modX c fun y =>
    { y with manifest := y.manifest.drop 1
             decided := y.decided ++ [{ x := x, stage := .decided, ts := ts, before := y.level, landAt := none }] }

/-- A late cast is reported (R264). -/
def State.castLate (s : State) (c : Fin 40) (x : Crossing) (late : Nat) : State :=
  let s1 := { s with engine := { s.engine with evt := raise s.engine.evt 2, eLate := satInc s.engine.eLate } }
  (s1.record 0x143 c.val x.ident (some (w24 late))).notice
    [.word "CAST", .word "LATE", .num c.val, .num x.ident.toNat, .num late]

/-- A cast of a head found behind is reported (R258). -/
def State.castBehind (s : State) (c : Fin 40) (x : Crossing) (d : Int) : State :=
  let s1 := { s with engine := { s.engine with evt := raise s.engine.evt 1, eLate := satInc s.engine.eLate } }
  (s1.record 0x142 c.val x.ident (some (w24 (mmText d)))).notice
    [.word "CAST", .word "BEHIND", .num c.val, .num x.ident.toNat, .num (mmText d)]

/-- The action start of a projected head, in 1/256 µs from the watch's start; none where it waits. -/
def State.startOffset (s : State) (c : Fin 40) (x : Crossing) (d : Int) : Option Int :=
  let p0 := s.newestPair
  let sign : Int := if s.motion.vel.num < 0 then -1 else 1
  match arrivalTau d.natAbs s.motion.vel.abs { s.motion.acc with num := sign * s.motion.acc.num } with
  | none => none
  | some tau => some (timeDiff p0.t s.time * 256 + tau - 32 * s.lead8 c x.action)

/-- A lane's work on one channel's heads in a watch: heads found behind are missed until one is cast or waits. -/
def State.lane (s : State) (c : Fin 40) : Nat → State
  | 0 => s
  | fuel + 1 =>
    match (s.engine.chans[c]).manifest with
    | [] => s
    | x :: _ =>
      let d := targetDistance x.target s.newestPair.pos
      let sign : Int := if s.motion.vel.num = 0 then 0 else if s.motion.vel.num < 0 then -1 else 1
      if x.stale then s
      else match headCase x.dir d sign with
      | .waits => s
      | .behind =>
        if !x.late then (s.missHead c x d).lane c fuel
        else if s.held c then s.holdHead c x
        else (s.decideHead c x (after s.time 100)).castBehind c x d
      | .projected =>
        match s.startOffset c x d with
        | none => s
        | some off =>
          if 200 * 256 ≤ off then s
          else if s.held c then s.holdHead c x
          else
            let us := roundDiv off 256
            let ts : Nat := if us < 100 then 100 else us.toNat
            let late : Int := ts * 256 - off
            let s1 := s.decideHead c x (after s.time ts)
            if (256 * s.regN Reg.lateTol : Int) < late then s1.castLate c x (roundDiv late 256).toNat else s1

/-! ### Turn compensation (R278) -/

/-- The duty applied to a channel's DUTY crossing at a watch, clamped to 5 to 100 %; none where none applies, as to a level that a held channel
has taken since (R218). -/
def State.turnDuty (s : State) (c : Fin 32) : Option Frac :=
  let x := s.engine.chans[chS c]
  match x.cur with
  | none => none
  | some k =>
    let v := s.motion.vel
    let w := s.motion.yaw
    if k.x.action ≠ .duty ∨ x.heldLevel ∨ k.x.noTc ∨ !s.xcfgBit (chS c) 2 then none
    else if v.abs.lt { num := s.regN Reg.tcVmin } ∨ w.num = 0 then none
    else
      let y := s.regZ (Reg.yofs c)
      let turn := w.scale y 1000
      let sum := v.add turn
      let ratio : Frac :=
        if v.num < 0 then { num := -(sum.num * v.den), den := sum.den * v.num.natAbs }
        else { num := sum.num * v.den, den := sum.den * v.num.natAbs }
      let d := (ratio.scale k.x.duty 1).reduce
      some (if d.lt { num := 5 } then { num := 5 } else if Frac.lt { num := 100 } d then { num := 100 } else d)

/-- Every channel's applied duty is computed anew. -/
def State.turnAll (s : State) : State :=
  allSol.foldl (fun t c => t.modSol c fun ch => { ch with applied := t.turnDuty c }) s

/-! ### Stranded counts (R208, R209) -/

/-- Each watch counts the travel of a STRANDED unit (R208). -/
def State.countStranded (s : State) : State :=
  if s.unit.st ≠ .stranded then s
  else { s with unit := { s.unit with
    strUsed := s.unit.strUsed + (posDiff s.motion.pos s.unit.strPos).natAbs, strPos := s.motion.pos } }

/-- The limit a STRANDED unit has reached: false DIST, true TIME (R207, R208); of two reached in one watch DIST is named (R209; DESIGN CHOICE, log
42). -/
def State.strandedLimit (s : State) : Option Bool :=
  if s.unit.st ≠ .stranded ∨ s.unit.limitAction then none
  else if s.motion.switched = some 0 ∨ 65536 * s.regN Reg.strDist ≤ s.unit.strUsed then some false
  else if s.regN Reg.strTime ≤ s.unit.strUs / 1000 then some true
  else none

/-- The limit action begins (R209, R275). -/
def State.startLimit (s : State) (time : Bool) : State :=
  let s1 := ((s.staEvt 1).record 0x0C2 63 (w24 (b2n time))).endAll .limit
  ({ s1 with unit := { s1.unit with limitAction := true } } : State).refresh

/-! ### The watch -/

/-- The lanes of a watch cast: the unit's state lets crossings execute and nothing replaces them (R255, R209, Table 3.7). -/
def State.lanesRun (s : State) : Bool :=
  s.unit.st.casting && !s.unit.limitAction && !s.handoverActs && decide (s.phase = .running)

/-- An on demand that was given up under ABORT, its channel at rest, is taken as a new one (R284, R287, R302). -/
def State.renewDemand (s : State) (c : Fin 32) : State :=
  match (s.sol.chans[c]).phase with
  | .idle => s.modSol c fun ch => { ch with want := false }
  | .off => s.modSol c fun ch => { ch with want := false }
  | _ => s

/-- The action of a cast takes the output: a DUTY on a channel not pulsing starts its first on-interval at ts (R263); a valve's travel starts
anew, whatever run is in progress (R324, R332). -/
def State.castOutput (s : State) (c : Fin 40) : State :=
  match chanKind c with
  | .inl i =>
    match s.solDemand i with
    | .pulse f p d => if (s.sol.chans[i]).pulsing then s.refresh else (s.startInterval i f p d).refresh
    | .on => (s.renewDemand i).refresh
    | .off _ => s.refresh
  | .inr v =>
    match s.valveDemand v with
    | .run e .crossing => ((s.modValve v fun y => { y with demand := .run e .crossing }).startRun v e .crossing).refresh
    | _ => s.refresh

/-- Levels that GO or FREE left to be cast are cast without a lead, one channel after the other (R219, R275). -/
def State.castKept (s : State) : State :=
  (allChans.filter fun c => (s.engine.chans[c]).castNext).foldl
    (fun t c => (t.modX c fun x => { x with castNext := false }).castOutput c) s

/-- The work of a watch (R242, R255, R208): without PD101 there are no estimates and no lanes, but the limits of a STRANDED unit are judged. -/
def State.watchWork (s : State) : State :=
  let s1 := if s.domainOn 101 then s.speedStep.estimates else s
  let s2 := { s1 with engine := { s1.engine with lastWatch := some s1.time } }
  if !s2.unit.st.casting then s2
  else
    let s3 := s2.countStranded
    match s3.strandedLimit with
    | some time => s3.startLimit time
    | none =>
      if !s3.lanesRun || !s3.domainOn 101 then s3
      else
        let s4 := s3.turnAll.castKept
        allChans.foldl
          (fun t c =>
            if t.domainOn (laneDomain c) && !t.oddChan c then t.lane c ((t.engine.chans[c]).manifest.length + 1) else t)
          s4

/-- WATCH (R255): at each multiple of 100 µs of chain time. The estimates and the SPEED source run in every state (DEDUCED, log 93);
the lanes only in UNDERWAY and STRANDED. -/
def execWatch (s : State) : Result :=
  .next <|
    if !s.coreUp || !(s.domainOn 101 || s.unit.st.casting) || decide (s.now % 100 ≠ 0) || decide (s.engine.lastWatch = some s.time) then s
    else s.watchWork

/-! ### Casts and landings (R263, R266) -/

/-- A channel's current crossing lands: stage LANDED, and the notice with NOTIFY (R266). -/
def State.landCrossing (s : State) (c : Fin 40) (m : Nat) : State :=
  match (s.engine.chans[c]).cur with
  | none => s
  | some k =>
    let s1 := s.modX c fun x => { x with cur := some { k with stage := .landed, landAt := none } }
    if k.x.notify then s1.notice [.word "LANDED", .num c.val, .num k.x.ident.toNat, .num m] else s1

/-- Whether a solenoid channel already holds the level of an action, so that it lands at ts: open from the on demand on, within an on-interval
of a pulse too; closed where it neither is on nor pulses (R266, R297; log 40). -/
def State.solHolds (s : State) (c : Fin 32) (act : CrossAction) : Bool :=
  let ch := s.sol.chans[c]
  match act with
  | .open_ => ch.want && decide (ch.phase ≠ .idle) && decide (ch.phase ≠ .off)
  | .close => !ch.want && !ch.pulsing
  | .duty => ch.pulsing

/-- When a cast is due to land without a dip: now, at a time, or not (R266). -/
inductive LandPlan where
  | now
  | at_ (t : ChainTime)
  | atDip
deriving DecidableEq, Repr

/-- How an action cast now lands (R266). -/
def State.landPlan (s : State) (c : Fin 40) (act : CrossAction) : LandPlan :=
  match chanKind c with
  | .inl i =>
    if s.solHolds i act then .now
    else match act with
      | .close => .at_ (after s.time (s.clat c))
      | _ => .atDip
  | .inr v =>
    let e := match act with
      | .close => ValveEnd.closed
      | _ => .open_
    if s.standsAt v e then .now else .at_ (after s.time (s.lat c))

/-- What happens at the ts of a cast (R263); the duty of a DUTY is turn-compensated by the estimates in force (R278). -/
def State.castNow (s : State) (c : Fin 40) (k : Current) : State :=
  let plan := s.landPlan c k.x.action
  let landAt := match plan with
    | .at_ t => some t
    | _ => none
  let s1 := s.modX c fun x =>
    { x with cur := some { k with stage := .cast, before := x.level, beforeHeld := x.heldLevel, beforeMute := x.muteLevel, landAt := landAt }
             level := k.x.level, sched := true, heldLevel := false, muteLevel := k.x.noLearn, castNext := false }
  let s2 := if k.x.notify then s1.notice [.word "CAST", .num c.val, .num k.x.ident.toNat, .num k.ts.toNat] else s1
  let s3 := match chanKind c with
    | .inl i => (s2.modSol i fun ch => { ch with applied := s2.turnDuty i }).castOutput c
    | .inr _ => s2.castOutput c
  if plan = .now then s3.landCrossing c 0 else s3

/-- CAST (R263): the ts of a channel's oldest decided crossing has come. -/
def execCast (c : Fin 40) (s : State) : Result :=
  .next <|
    match (s.engine.chans[c]).decided with
    | k :: rest =>
      if !s.lanesRun || !s.reached k.ts then s
      else (s.modX c fun x => { x with decided := rest }).castNow c k
    | [] => s

/-- The cast of a channel that is due to land at a time (R266). -/
def XChan.landingDue (x : XChan) (s : State) : Bool :=
  match x.cur with
  | some k => decide (k.stage = .cast) && match k.landAt with
    | some t => s.reached t
    | none => false
  | none => false

/-- CLOSE_LANDING (R266): a solenoid CLOSE lands at ts + CHcc.CLAT. -/
def execCloseLanding (c : Fin 32) (s : State) : Result :=
  .next <| if s.coreUp && (s.engine.chans[chS c]).landingDue s then s.landCrossing (chS c) 0 else s

/-- VALVE_LANDING (R266, R332): a valve crossing lands at ts + CHcc.LAT, whether or not its end was reached. -/
def execValveLanding (v : Fin 8) (s : State) : Result :=
  .next <| if s.coreUp && (s.engine.chans[chV v]).landingDue s then s.landCrossing (chV v) 0 else s

/-! ### The dip and the learned latency (R268 to R270, R290) -/

/-- L8 after an opening that teaches, before its clamp (R270). -/
def learnStep (l8 m : Nat) : Int := l8 + Int.tdiv (8 * (m : Int) - l8) 8

/-- An opening landed at a dip teaches its channel (R269, R270). -/
def State.learn (s : State) (c : Fin 32) (m : Nat) : State :=
  if !(s.sol.chans[c]).teach || !s.xcfgBit (chS c) 0 || !s.domainOn 101 then s
  else
    let next := learnStep (s.engine.chans[chS c]).l8 m
    let clamped := clampZ 16000 2000000 next
    let s1 := s.modX (chS c) fun x => { x with l8 := clamped.toNat }
    if clamped = next then s1 else s1.xngEvt 5

/-- A confirmed dip (R266 to R268, R281, R290, R291). -/
def State.takeDip (s : State) (c : Fin 32) : State :=
  let ch := s.sol.chans[c]
  let m := s.since ch.boostAt
  let s1 := s.modSol c fun x => { x with dip := some s.time, nlrun := 0 }
  let s2 := (s1.modX (chS c) fun x => { x with latm := BitVec.ofNat 18 (Nat.min 262143 m) }).learn c m
  let s3 := match (s2.engine.chans[chS c]).cur with
    | some k => if k.stage = .cast ∧ k.x.action ≠ .close ∧ !k.missed ∧ s2.unit.st.casting then s2.landCrossing (chS c) m else s2
    | none => s2
  match ch.phase, ch.post with
  | .peak, some k =>
    if k = 0 then s3.endPeak c
    else s3.modSol c fun x =>
      { x with phaseEnd := if s.reached (after s.time k) then x.phaseEnd
                           else if (x.phaseEnd - s.time).toNat < k then x.phaseEnd else after s.time k }
  | _, _ => s3

/-- Whether the dip detector of a channel is at work: DIPBLANK after BOOST start, within the no-landing window, and before the dip (R290, R291). -/
def State.seeksDip (s : State) (c : Fin 32) : Bool :=
  let ch := s.sol.chans[c]
  s.coreUp && s.domainOn c.val && !s.isOdd c && (decide (ch.phase = .boost) || decide (ch.phase = .peak))
    && ch.dip.isNone && decide (s.dipBlank c ≤ s.since ch.boostAt)

/-- ARMATURE_DIP (R290, R291): the dip detector of a channel confirms a dip. The command says what became of the current between the values that
commands have told; a dip that the samples themselves show falls due by itself (DEDUCED, log 88). -/
def execArmatureDip (c : Fin 32) (s : State) : Result :=
  .next <| if s.seeksDip c then s.takeDip c else s

/-- The dip detector sees a filtered current: the running maximum; DIPTH below it the running minimum; DIPTH above that the dip (R290). -/
def SolChan.detect (ch : SolChan) (i th : Nat) : SolChan :=
  match ch.minSeen with
  | none =>
    let m := Nat.max ch.maxSeen i
    { ch with maxSeen := m, minSeen := if i + th ≤ m then some i else none }
  | some n => { ch with minSeen := some (Nat.min n i), dipFound := ch.dipFound || decide (n + th ≤ i) }

/-- Whether the samples of a channel show a dip that has not been taken (R290). -/
def State.dipDue (s : State) (c : Fin 32) : Bool := (s.sol.chans[c]).dipFound && s.seeksDip c

end Sys2Proof.Machine
end

