-- ==== Sys2Proof/Machine/Banks.lean ====
section
/-! DEFINITION. Solenoid banks in time (chapter 11): the arbiter's grants, the phases' ends, boost readiness and the
converter's events, pulse periods, and the diagnostics and faults of channels and banks. -/
namespace Sys2Proof.Machine

open Sys2Proof

/-! ### BOOST and its policies (R284 to R287) -/

/-- Whether a current lies below a coil's threshold, both in mA, to 3 % and 15 mA (R400, R404). -/
def State.belowCoil (s : State) (c : Fin 32) (i threshold : Nat) : Bool :=
  bandActs (.coil c.val) s.clk (decide (100 * i + 1500 < 97 * threshold)) (decide (100 * i < 103 * threshold + 1500))

/-- Whether a filtered current at the end of BOOST is that of an open load: below 100 mA, to 20 mA (R303, R400, R404). -/
def State.openLoad (s : State) (c : Fin 32) (i : Nat) : Bool := bandActs (.openLoad c.val) s.clk (decide (i < 80)) (decide (i < 120))

/-- A chopping period of a channel begins: below the threshold of its phase the low side turns on, else it stays off for the whole period,
with the recirculation of the phase's decay bit (R281 to R283). -/
def State.chop (s : State) (c : Fin 32) : State :=
  let i := s.coilNow c
  let decayBy (k : Nat) : Decay := if s.profBit c k then .fast else .slow
  s.modSol c fun ch =>
    { ch with
      chopClk := some s.clk
      lowSide := match ch.phase with
        | .boost => s.belowCoil c i (s.regN (Reg.peak c))
        | .peak => s.belowCoil c i (s.regN (Reg.peak c))
        | .hold => s.belowCoil c i (s.regN (Reg.hold c))
        | _ => false
      chopDecay := match ch.phase with
        | .boost => decayBy 0
        | .peak => decayBy 1
        | .hold => decayBy 2
        | _ => ch.chopDecay }

/-- A channel starts BOOST, from VBST or from VBAT, and conducts from then on (R281, R284, R306, Table 11.11); while the kill tree holds the
VBST path of the bank open it is fed from VBAT (R370, DEDUCED, log 87). -/
def State.startBoost (s : State) (c : Fin 32) (fromVbst : Bool) : State :=
  let vbst := fromVbst && !s.bankKilled (bankOf c)
  ((s.modSol c fun ch =>
    { ch with
      phase := .boost, boostAt := s.time, phaseEnd := after s.time (s.tboost c), dip := none, post := none
      maxSeen := 0, minSeen := none, dipFound := false, fromVbat := !vbst, teach := ch.teach && vbst, decaying := false
      act := if ch.act = BitVec.allOnes 48 then ch.act else ch.act + 1 }).modBank (bankOf c) fun b =>
    { b with holder := some c, vbst := vbst, waitUntil := none, queue := b.queue.filter fun x => decide (x ≠ c) }).chop c

/-- A bank diagnostic: flag, record and notice (R303): 0 OTW, 1 OTS, 2 SG, 3 BNR. -/
def State.bankDiag (s : State) (b : Fin 8) (k : Nat) (word : String) (data : Word) : State :=
  ((s.modBank b fun x => { x with evt := raise x.evt k }).record (0x1C1 + k) b.val data).notice
    [.word "BANK", .num b.val, .word word]

/-- A converter event: flag, record and notice (R288, R303): 0 OV, 1 NOTREADY, 2 STARTFAIL. -/
def State.boostDiag (s : State) (k : Nat) (word : String) (vbst : Nat) : State :=
  ((s.modBoost fun b => { b with evt := raise b.evt k, vmeas := vbst }).record (0x1C5 + k) 63 (w24 vbst)).notice
    [.word "BOOST", .word word]

/-- What a grant that finds boost not ready does (Table 11.4). -/
def State.boostNotReady (s : State) (b : Fin 8) (c : Fin 32) : State :=
  let s1 := (s.solDiag c 5).bankDiag b 3 "BNR" 0
  let cfg := s.reg (Reg.bankCfg b)
  match fld cfg 9 2 with
  | 0 =>
    (s1.modSol c fun ch => { ch with phase := .bnrwait }).modBank b fun x =>
      { x with holder := some c, vbst := false, waitUntil := some (after s.time (1000 * fld cfg 13 7))
               queue := x.queue.filter fun y => decide (y ≠ c) }
  | 1 => s1.startBoost c false
  | _ => ((s1.dequeue c).modSol c fun ch => ch.rest s.clk).missLanding c

/-- BOOST_GRANT (R284, R287): the bank has no channel in BOOST and its queue's head is granted. -/
def execBoostGrant (b : Fin 8) (s : State) : Result :=
  .next <|
    match (s.sol.banks[b]).holder, (s.sol.banks[b]).queue with
    | none, c :: _ =>
      let rdy := s.sol.boost.rdy
      let s1 := s.modBank b fun x => { x with readyLast := rdy }
      if rdy then s1.startBoost c true else s1.boostNotReady b c
    | _, _ => s

/-- The filtered current of a channel is told: what its samples amount to (R289). -/
def SolChan.measure (ch : SolChan) (own clk : Nat) : SolChan :=
  if ch.imeas.toNat = own then ch else { ch with imeas := BitVec.ofNat 13 own, samples := [(clk, own)], coil := own }

/-- BOOST_END (R281, R289, R291, R303): TBOOST has elapsed; the open-load check on the filtered current, then PEAK; a channel that faults where PEAK is skipped goes
off. -/
def execBoostEnd (c : Fin 32) (filtered : Nat) (s : State) : Result :=
  .next <|
    if (s.sol.chans[c]).phase ≠ .boost ∨ !s.reached (s.sol.chans[c]).phaseEnd then s
    else
      let s1 := s.modSol c fun ch => ch.measure (Nat.min 8191 filtered) s.clk
      let s2 := (if s1.openLoad c (s1.filtered c).toNat then s1.solDiag c 0 else s1).endBoost c
      if (s2.sol.chans[c]).fault = (s.sol.chans[c]).fault then s2 else s2.refresh

/-- PEAK_END (R281, R291): the no-landing window closes and HOLD starts; a channel it faults goes off. -/
def execPeakEnd (c : Fin 32) (s : State) : Result :=
  .next <|
    if (s.sol.chans[c]).phase ≠ .peak ∨ !s.reached (s.sol.chans[c]).phaseEnd then s else (s.endPeak c).refresh

/-- OFF_COMPLETE (R281): the coil current of a channel that decays has fallen below 20 mA (log 88). -/
def execOffComplete (c : Fin 32) (s : State) : Result :=
  .next <|
    if !(s.sol.chans[c]).decaying then s
    else s.modSol c fun ch =>
      let x := if ch.phase = .off then ch.rest s.clk else ch
      { x with decaying := false, coil := Nat.min 19 ch.coil }

/-- Whether the wait of a channel in OFFWAIT is over (R293). -/
def State.offwaitOver (s : State) (c : Fin 32) : Bool :=
  let ch := s.sol.chans[c]
  decide (ch.phase = .offwait) && !ch.decaying && match ch.offAt with
    | some t => decide (s.toff c ≤ s.since t)
    | none => true

/-- OFFWAIT_END (R293): OFF has completed and TOFF elapsed, so the channel requests boost. -/
def execOffwaitEnd (c : Fin 32) (s : State) : Result :=
  .next <| if s.offwaitOver c then s.requestBoost c true else s

/-- BNRWAIT_EXPIRY (R287): BOOST starts as under DEGRADE. -/
def execBnrwaitExpiry (b : Fin 8) (s : State) : Result :=
  .next <|
    match (s.sol.banks[b]).holder, (s.sol.banks[b]).waitUntil with
    | some c, some t => if (s.sol.chans[c]).phase = .bnrwait ∧ s.reached t then s.startBoost c false else s
    | _, _ => s

/-! ### Readiness and the converter (R286, R288) -/

/-- The measured VBST, and the end of an overvoltage below 105 % of the target (R288). -/
def State.seeVbst (s : State) (vbst : Nat) : State :=
  s.modBoost fun b => { b with vmeas := vbst, ov := b.ov && decide (21 * s.bstTarget ≤ 20 * vbst) }

/-- Boost becomes ready: the channels in BNRWAIT start BOOST from VBST (R287). -/
def State.gainReady (s : State) : State :=
  allSol.foldl (fun t c => if (t.sol.chans[c]).phase = .bnrwait then t.startBoost c true else t) (s.modBoost fun b => { b with rdy := true })

/-- BOOST_READY (R286, R287): VBST comes into the band; the channels in BNRWAIT start BOOST from VBST, those too that a converter which started within
the band has found waiting. -/
def execBoostReady (vbst : Nat) (s : State) : Result :=
  .next <|
    if !s.sol.boost.run then s
    else
      let s1 := s.seeVbst vbst
      if s.inBand vbst then s1.gainReady else s1

/-- Whether any channel is in BOOST. -/
def State.anyBoost (s : State) : Bool := allSol.any fun c => decide ((s.sol.chans[c]).phase = .boost)

/-- Readiness is lost (R286, R288): each BOOST from VBST continues, is reported and teaches nothing; outside the ramp and
outside a BOOST it is an event. A start after which it was ready at 100 ms has not failed. -/
def State.loseReady (s : State) (vbst : Nat) : State :=
  let s2 := (s.modBoost fun b => { b with rdy := false, judged := b.judged || decide (b.startAt + 100000 < s.clk) }).boostUnready
  if s.boostRamp || s.anyBoost then s2 else s2.boostDiag 1 "NOTREADY" vbst

/-- NOTREADY (R286, R288): VBST leaves the band while the converter runs. -/
def execNotReady (vbst : Nat) (s : State) : Result :=
  .next <|
    if !s.sol.boost.run then s
    else
      let s1 := s.seeVbst vbst
      if s.inBand vbst ∨ !s.sol.boost.rdy then s1 else s1.loseReady vbst

/-- Whether a VBST is too high: above 110 % of the target, or 63.0 V (R288). -/
def State.overVolts (s : State) (vbst : Nat) : Bool := decide (11 * s.bstTarget < 10 * vbst) || decide (630 < vbst)

/-- A VBST that has come to be too high is an event (R288). -/
def State.startOv (s : State) (vbst : Nat) : State := (s.modBoost fun b => { b with ov := true }).boostDiag 0 "OV" vbst

/-- The band and the limits move with BST.CFG.TARGET: the VBST last measured is judged anew (R286, R288). -/
def State.rejudgeVbst (s : State) : State :=
  let v := s.sol.boost.vmeas
  if !s.sol.boost.run then s
  else
    let s1 := if !s.sol.boost.ov && s.overVolts v then s.startOv v else s.seeVbst v
    if s.inBand v = s.sol.boost.rdy then s1 else if s.sol.boost.rdy then s1.loseReady v else s1.gainReady

/-- OV (R288): VBST exceeds 110 % of the target, or 63.0 V; it lies outside the band too. -/
def execOv (vbst : Nat) (s : State) : Result :=
  .next <|
    if !s.sol.boost.run then s
    else if s.sol.boost.ov || !s.overVolts vbst then s.seeVbst vbst
    else
      let s1 := s.startOv vbst
      if s.sol.boost.rdy && !s.inBand vbst then s1.loseReady vbst else s1

/-- Whether the converter has failed to start (R288). -/
def State.startFailDue (s : State) : Bool :=
  s.sol.boost.run && !s.sol.boost.rdy && !s.sol.boost.judged && decide (s.sol.boost.startAt + 100000 ≤ s.clk)

/-- STARTFAIL (R288): not ready 100 ms after a start. -/
def execStartFail (vbst : Nat) (s : State) : Result :=
  .next <|
    if !s.startFailDue then s
    else (s.modBoost fun b => { b with judged := true }).boostDiag 2 "STARTFAIL" vbst

/-! ### Pulse periods (R294 to R296) -/

/-- A channel's opening has not started. -/
def SolPhase.unstarted : SolPhase → Bool
  | .queued => true
  | .bnrwait => true
  | .offwait => true
  | .idle => true
  | .off => true
  | _ => false

/-- A pulse period starts now on a channel: its demand is a pulse, the grid has a start here that has not been taken, and
a changed grid waits for the end of the present on-interval (R294, R295). -/
def State.periodDue (s : State) (c : Fin 32) : Bool :=
  match s.solDemand c with
  | .pulse f p d =>
    let ch := s.sol.chans[c]
    let period := pulsePeriod f
    let offset := pulseOffset p period
    !s.isOdd c && ch.pulsing && !(ch.full && d.isFull) && decide (0 < period)
      && decide (((s.now : Int) - (offset : Int)) % (period : Int) = 0) && decide (ch.lastStart ≠ some s.time)
      && (decide (ch.grid = some (period, offset)) || ch.onUntil.isNone)
  | _ => false

/-- A pulse's on-interval ends; one whose BOOST has not started is skipped (R295, R296). -/
def State.endInterval (s : State) (c : Fin 32) : State :=
  let s1 := if (s.sol.chans[c]).phase.unstarted then s.solDiag c 7 else s
  (s1.modSol c fun ch => { ch with onUntil := none, full := false, want := false }).offDemand c false

/-- PULSE_PERIOD_START (R284, R294, R295): a grid start; the channel takes an on demand. An interval of the whole period
that ends here keeps an opening that has started. -/
def execPulsePeriodStart (c : Fin 32) (s : State) : Result :=
  .next <|
    if !s.periodDue c then s
    else
      let s1 := if (s.sol.chans[c]).want && (s.sol.chans[c]).phase.unstarted then s.endInterval c else s
      match s.solDemand c with
      | .pulse f p d => (s1.startInterval c f p d).refresh
      | _ => s1

/-- Whether a pulse's on-interval ends now and no period of the grid starts with it (R295). -/
def State.onEndDue (s : State) (c : Fin 32) : Bool :=
  let ch := s.sol.chans[c]
  ch.pulsing && !s.isOdd c && !s.periodDue c && match ch.onUntil with
    | some t => s.reached t
    | none => false

/-- PULSE_ON_END (R285, R292, R295, R296). -/
def execPulseOnEnd (c : Fin 32) (s : State) : Result :=
  .next <| if s.onEndDue c then s.endInterval c else s

/-! ### Diagnostics and faults (R303, R304) -/

/-- Whether a bank has been on VBAT for 1 ms (R303). -/
def State.settledOnVbat (s : State) (b : Fin 8) : Bool :=
  decide (s.hsPath b = .vbat) && match (s.sol.banks[b]).vbatClk with
    | some t => decide (t + 1000 ≤ s.clk)
    | none => false

/-- OLOFF (R303): the off-state check of a channel that has been IDLE for 1 ms with its bank on VBAT. -/
def execOlOff (c : Fin 32) (s : State) : Result :=
  .next <|
    if s.isOdd c || !s.domainOn c.val || !s.profBit c 11 || decide ((s.sol.chans[c]).phase ≠ .idle)
        || decide (s.clk < (s.sol.chans[c]).idleClk + 1000) || !s.settledOnVbat (bankOf c) then s
    else s.solDiag c 1

/-- Whether the channel can carry a low-side current. -/
def SolPhase.conducts : SolPhase → Bool
  | .boost => true
  | .peak => true
  | .hold => true
  | _ => false

/-- SB (R299, R303, R304): the low side turns off and the channel, for a pair its leader, faults. -/
def execSb (c : Fin 32) (s : State) : Result :=
  .next <|
    let k := s.leaderOf c
    if !(s.sol.chans[k]).phase.conducts then s
    else (((s.modSol k fun ch => { ch with lowSide := false }).solDiag k 2).solFault k 0).refresh

/-- Every channel of a bank faults with cause BANK (R304). -/
def State.bankFault (s : State) (b : Fin 8) : State :=
  (([0, 1, 2, 3] : List (Fin 4)).foldl (fun t k => t.solFault (chanOf b k) 3) s).refresh

/-- Whether the low side of a channel is on; in a pair both follow the even member (R299). -/
def State.lowSideOn (s : State) (c : Fin 32) : Bool := (s.sol.chans[s.leaderOf c]).lowSide

/-- SG (R303, R304): both high-side paths open and the bank faults; a channel is named only where its low side is off. -/
def execSg (b : Fin 8) (named : Option (Fin 4)) (s : State) : Result :=
  .next <|
    if s.hsPath b = .off then s
    else
      let named := named.filter fun k => !s.lowSideOn (chanOf b k)
      let bits : BitVec 5 := match named with
        | some k => BitVec.ofNat 5 (2 + 4 * k.val + 16)
        | none => 2
      let data : Word := match named with
        | some k => w24 (chanOf b k).val
        | none => 0xFFFFFF
      let s1 := (s.modBank b fun x => { x with fault := (x.fault &&& 1) ||| bits }).bankDiag b 2 "SG" data
      let s2 := match named with
        | some k => s1.solDiag (s1.leaderOf (chanOf b k)) 3
        | none => s1
      s2.bankFault b

/-- A bank's junction temperature, with the warning where it comes to 150 °C (R303). -/
def State.seeTemp (s : State) (b : Fin 8) (temp : Int) : State :=
  let s1 := s.modBank b fun x => { x with temp := temp, otwNow := decide (150 ≤ temp) }
  if 150 ≤ temp ∧ !(s.sol.banks[b]).otwNow then s1.bankDiag b 0 "OTW" (z24 temp) else s1

/-- OTW (R303): the bank's junction temperature, with the event where it reaches 150 °C. -/
def execOtw (b : Fin 8) (temp : Int) (s : State) : Result :=
  .next <|
    if !s.domainOn (32 + b.val) then s
    else
      s.seeTemp b temp

/-- OTS (R303, R304): at 175 °C the bank faults. -/
def execOts (b : Fin 8) (temp : Int) (s : State) : Result :=
  .next <|
    if !s.domainOn (32 + b.val) then s
    else
      let s1 := s.seeTemp b temp
      if temp < 175 ∨ (s.sol.banks[b]).fault.getLsbD 0 then s1
      else ((s1.modBank b fun x => { x with fault := raise x.fault 0 }).bankDiag b 1 "OTS" (z24 temp)).bankFault b

/-! ### Spread spectrum (R115) -/

/-- CLK.SSC0 to CLK.SSC7 for CD10 to CD17, and CLK.SSCB for CD54. -/
def State.sscReg (s : State) (i : Fin 9) : Word := s.reg (0x0510 + i.val)

/-- RATE of a modulator: what it moves in its triangle in a microsecond. -/
def Modulator.rate (m : Modulator) : Nat := fld m.cfg 6 6

/-- Where a modulator stands in its triangle, -250 to 250: from 0 it first rises, or falls with INV. -/
def Modulator.sweep (m : Modulator) : Int :=
  let up : Int := if m.pos < 250 then m.pos else if m.pos < 750 then 500 - m.pos else m.pos - 1000
  if bit m.cfg 12 then -up else up

/-- The cycles that a domain of 40 MHz makes in the present microsecond, in 1/500 000: the frequency is off by half DEPTH at the most. -/
def Modulator.step (m : Modulator) : Nat := (40 * (500000 + (fld m.cfg 0 6 : Int) * m.sweep)).toNat

/-- A microsecond of a modulator: a changed register is taken at the next point at which the frequency passes the nominal one, at once where there
is no modulation, and the triangle starts anew there (R115). Where in its microsecond that point lies is not kept (DESIGN CHOICE, log 94). -/
def Modulator.tick (m : Modulator) (want : Word) : Modulator :=
  let p := m.pos + m.rate
  let passes := decide (m.pos < 500) && decide (500 ≤ p) || decide (1000 ≤ p) || decide (fld m.cfg 0 6 = 0)
  if want ≠ m.cfg && passes then { cfg := want, pos := 0, cycles := m.cycles + m.step }
  else { m with pos := p % 1000, cycles := m.cycles + m.step }

/-- Whether a period of `n` cycles, the grid moved by `shift` quarters of a period, begins within the present microsecond. -/
def Modulator.starts (m : Modulator) (n shift : Nat) : Bool :=
  let period := 4 * (500000 * n)
  let into := (4 * m.cycles + (4 - shift) * (500000 * n)) % period
  decide (0 < n) && decide ((period - into) % period < 4 * m.step)

/-- The modulators go on in the domains whose clocks run. -/
def State.tickSpread (s : State) : State :=
  if !s.coreUp then s
  else { s with spread := Vector.ofFn fun i =>
      if s.domainOn (if i.val = 8 then 107 else 32 + i.val) then (s.spread[i]).tick (s.sscReg i) else s.spread[i] }

/-! ### Chopping and the bank's ADC (R282, R283, R289, R290) -/

/-- The chopping period of a bank, in cycles of CD10 + b (R283). -/
def State.chopPeriod (s : State) (b : Fin 8) : Nat := divNear 400000 (fld (s.reg (Reg.bankCfg b.val)) 0 9)

/-- The modulator of a bank's clock. -/
def State.bankSpread (s : State) (b : Fin 8) : Modulator := s.spread[(⟨b.val, by omega⟩ : Fin 9)]

/-- Whether a chopping period of a conducting channel begins within the present microsecond: its periods are BANKb.CFG.CHOP long, in cycles of
CD10 + b, and begin a quarter period after those of the channel before it (R283). -/
def State.chopDue (s : State) (c : Fin 32) : Bool :=
  let ch := s.sol.chans[c]
  ch.phase.conducts && !s.isOdd c && decide (ch.chopClk ≠ some s.clk)
    && (s.bankSpread (bankOf c)).starts (s.chopPeriod (bankOf c)) (c.val % 4)

/-- CHOPPING_PERIOD (R282, R299): a chopping period of a channel starts with this current of its own; the odd member of a pair follows the even
one and only adds its current. -/
def execChoppingPeriod (c : Fin 32) (current : Nat) (s : State) : Result :=
  .next <|
    if !s.domainOn c.val then s
    else
      let s1 := s.modSol c fun ch => { ch with coil := current }
      if s.isOdd c then s1 else s1.chop c

/-- The ADC samples the current of a channel: the filtered current is the mean of the samples within the last `n` cycles of 25 ns (R289). -/
def SolChan.sample (ch : SolChan) (clk n : Nat) : SolChan :=
  let l := (ch.samples.filter fun x => decide (40 * (clk - x.1) < n)) ++ [(clk, ch.coil)]
  { ch with samples := l, imeas := BitVec.ofNat 13 (Nat.min 8191 (divNear (l.map (·.2)).sum l.length)) }

/-- The slots of the present microsecond: slot k of every frame of 4 µs samples the current of channel 4b + k, and the dip detector of the
channel, for a pair of its leader, sees the filtered current (R289, R290). -/
def State.sampleCoil (s : State) (c : Fin 32) : State :=
  if s.clk % 4 ≠ c.val % 4 || !s.domainOn (40 + c.val / 4) then s
  else
    let s1 := s.modSol c fun ch => ch.sample s.clk (s.chopPeriod (bankOf c))
    let k := s1.leaderOf c
    if s1.seeksDip k then s1.modSol k fun ch => ch.detect (s1.filtered k).toNat (s1.dipTh k) else s1

/-- Every ADC samples. -/
def State.sampleCoils (s : State) : State := if s.coreUp then allSol.foldl State.sampleCoil s else s

/-- Since when each bank is on VBAT (R303). -/
def State.markBanks (s : State) : State :=
  { s with sol := { s.sol with banks := Vector.ofFn fun b =>
      { s.sol.banks[b] with vbatClk := if s.hsPath b ≠ .vbat then none else
          match (s.sol.banks[b]).vbatClk with
          | some t => some t
          | none => some s.clk } } }

/-- The period of BGATE, in cycles of CD54 (R288). -/
def State.bgatePeriod (s : State) : Nat := 4000 / fld (s.reg Reg.bstCfg) 11 8

/-- What the converter regulates BFB to, in 0.1 V: TARGET, in the first 10 ms after a start what the ramp from VBAT has reached (R288). -/
def State.boostAim (s : State) : Nat :=
  let target : Int := fld (s.reg Reg.bstCfg) 0 10
  let t := s.clk - s.sol.boost.startAt
  if 10000 ≤ t then target.toNat else (s.power.vbat + (target - s.power.vbat) * t / 10000).toNat

/-- The BSNS voltage, in mV, that ends each on-time (R288). -/
def State.ilim (s : State) : Nat := 50 + 10 * fld (s.reg Reg.bstCfg) 19 4

/-- Whether BSNS has reached the threshold of ILIM, to 10 %; what BSNS carries is no rule of the manual (R288, R406). -/
def State.ilimReached (s : State) : Bool :=
  bandActs .boostIlim s.clk (decide (11 * s.ilim ≤ 10 * Config.bsns s.clk)) (decide (9 * s.ilim ≤ 10 * Config.bsns s.clk))

/-- Whether BFB lies below what the converter regulates to, which is within 2 % of it; what BFB carries is no rule of the manual (R288, R406). -/
def State.belowAim (s : State) : Bool :=
  bandActs .boostTarget s.clk (decide (100 * Config.bfb s.clk < 98 * s.boostAim)) (decide (100 * Config.bfb s.clk < 102 * s.boostAim))

/-- The converter goes on: an on-time begins with a period of BGATE where the output is too low, and ends as BSNS reaches ILIM or the output its aim;
one that has ended is over until the next period begins (R288). -/
def State.tickBoost (s : State) : State :=
  let starts := (s.spread[(8 : Fin 9)]).starts s.bgatePeriod 0
  s.modBoost fun b =>
    let ended := b.run && (s.ilimReached || b.limited && !starts)
    { b with limited := ended, gate := b.run && !ended && (starts || b.gate) && s.belowAim }

/-- The comparator of a channel, 1 µs after its chopping period began, turns the low side off once the current has reached the threshold; when
the coil's current does so is no rule of the manual (R282, log 88). -/
def SolChan.compare (ch : SolChan) (c clk : Nat) : SolChan :=
  if ch.lowSide && decide (ch.chopClk ≠ some clk) && Config.coilReaches c clk then { ch with lowSide := false } else ch

/-- Every comparator acts in the present microsecond. -/
def State.compareCoils (s : State) : State :=
  { s with sol := { s.sol with chans := Vector.ofFn fun c => (s.sol.chans[c]).compare c.val s.clk } }

end Sys2Proof.Machine
end

