-- ==== Sys2Proof/Machine/Valves.lean ====
section
/-! DEFINITION. PWM slices and motorised valves in time (chapter 12): periods and the sync chain, edge placement, bootstrap
refresh, the calibrator, fault inputs, limits and their faults, the ends of runs, and the position estimate. -/
namespace Sys2Proof.Machine

open Sys2Proof

/-- The slices and valves change. -/
def State.modPwm (s : State) (f : Pwm → Pwm) : State := { s with pwm := f s.pwm }

/-! ### Periods (R310 to R315) -/

/-- The four bits of a period count in reverse order (R314). -/
def bitRev4 (n : Nat) : Nat := 8 * (n % 2) + 4 * (n / 2 % 2) + 2 * (n / 4 % 2) + n / 8 % 2

/-- The tap that places an edge, with `k` taps to a tick: with dither the next one in r of 16 periods (R312, R314). -/
def edgeTap (edge k count : Nat) (dither : Bool) : Nat :=
  let sixteenths := edge % 512 * k / 32
  let q := sixteenths / 16
  if dither && decide (bitRev4 (count % 16) < sixteenths % 16) then q + 1 else q

/-- A slice that starts a period on sync only (R315). -/
def State.syncIn (s : State) (i : Fin 12) : Bool := decide (0 < i.val) && bit (s.reg (Reg.pwmCfg i)) 3

/-- The first tick of the next microsecond. -/
def State.tickLimit (s : State) : Nat := 240 * (s.clk + 1)

/-- The tick at which a slice's next start is due within the present microsecond, if it is. -/
def State.startDue (s : State) (i : Fin 12) : Option Nat :=
  let w := s.pwm.slices[i]
  if !w.running then none
  else if s.syncIn i then
    match w.syncs with
    | t :: _ => if t < s.tickLimit then some t else none
    | [] => none
  else if w.endTick < s.tickLimit then some w.endTick else none

/-- The sync pulse of a period start reaches the next slice (R315). -/
def State.sendSync (s : State) (i : Fin 12) (tick : Nat) : State :=
  if h : i.val + 1 < 12 then
    let n : Fin 12 := ⟨i.val + 1, h⟩
    if s.syncIn n && (s.pwm.slices[n]).running then
      s.modSlice n fun w =>
        { w with syncs := w.syncs ++ [tick + s.regN (Reg.pwmPhase n) + 2 + b2n (Config.syncLate i.val tick)] }
    else s
  else s

/-- A low side has been on for 400 ns in the period that ends, a wait for the next sync included: its bootstraps are charged (R315, R318). -/
def State.chargeBoots (s : State) (i : Fin 12) (tick : Nat) : State :=
  allValves.foldl
    (fun t v =>
      if s.driver v = i ∧ s.deadTicks v + 96 ≤ tick - s.highOff v then
        t.modValve v fun y => { y with lowAtA := s.clk, lowAtB := s.clk }
      else t) s

/-- Every predriver a slice drives comes to the end of its period (R317). -/
def State.endGates (s : State) (i : Fin 12) (tick : Nat) : State :=
  allValves.foldl (fun t v => if s.driver v = i then t.endPeriodGates v tick else t) s

/-- A slice loads its shadow and forms a period that starts at a tick (R310, R312, R314). -/
def State.formPeriod (s : State) (i : Fin 12) (tick : Nat) : State :=
  let cfg := s.reg (Reg.pwmCfg i)
  let (p, exact, clamped) := s.carrier i
  let ok := s.pwm.calOk
  let edge := if ok then exact else 512 * divNear exact 512
  s.modSlice i fun w =>
    { w with
      duty := w24 (s.sliceDuty i), per := p, ton := edge / 512, edge := edge
      tap := if ok then edgeTap edge s.pwm.taps w.count (bit cfg 2) else 0
      clamped := clamped, fine := ok, count := (w.count + 1) % 16
      startTick := tick, endTick := tick + p, syncs := if s.syncIn i then w.syncs.drop 1 else [] }

/-- A start that falls due while the previous period runs is skipped (R315). -/
def State.syncMiss (s : State) (i : Fin 12) : State :=
  ((s.modSlice i fun w => { w with syncs := w.syncs.drop 1 }).modPwm fun p => { p with evt := raise p.evt i.val }).record
    0x203 i.val 0

/-- PERIOD_START (R310, R315, R322): a slice's next start is due; one whose group fault has been cleared resumes with it. -/
def execPeriodStart (i : Fin 12) (s : State) : Result :=
  .next <|
    match s.startDue i with
    | none => s
    | some tick =>
      if tick < (s.pwm.slices[i]).endTick then s.syncMiss i
      else
        let s1 := if (s.pwm.slices[i]).forced && !s.groupFault i then (s.modSlice i fun w => { w with forced := false }).refresh
          else s
        (((s1.chargeBoots i tick).endGates i tick).formPeriod i tick).sendSync i tick

/-- CALIBRATION (R313): K as the calibrator in PD111 has measured it. -/
def execCalibration (taps : Nat) (s : State) : Result :=
  .next <|
    if !s.coreUp || !s.domainOn 111 then s
    else
      let k := Nat.min 48 taps
      let ok := decide (20 ≤ taps) && decide (taps ≤ 48)
      let s1 := s.modPwm fun p => { p with taps := k, calOk := ok, evt := if ok then p.evt else raise p.evt 12 }
      if ok then s1 else s1.record 0x202 63 (w24 k)

/-! ### Bridges (R316 to R318, R323) -/

/-- Whether a refresh is due on a half-bridge: its high side on, its low side not on for 2 ms (R318). -/
def State.refreshDue (s : State) (v : Fin 8) (h : Half) : Bool :=
  (s.gates v).high h && decide ((s.pwm.valves[v]).lowAt h + 2000 ≤ s.clk)

/-- BOOTSTRAP_REFRESH (R318): the high side turns off, and the low side is on for 400 ns after one dead time. -/
def execBootstrapRefresh (v : Fin 8) (h : Half) (s : State) : Result :=
  .next <|
    if !s.refreshDue v h then s
    else
      let done := s.clk + (s.deadTicks v + 96) / 240
      s.modValve v fun y => match h with
        | .a => { y with lowAtA := done, pulseA := some (240 * s.clk) }
        | .b => { y with lowAtB := done, pulseB := some (240 * s.clk) }

/-- VGD_UNDERVOLTAGE (R400): VGD falls below its lockout, or recovers. -/
def execVgdUndervoltage (recovered : Bool) (s : State) : Result :=
  .next { s with power := { s.power with vgdLow := !recovered } }

/-- BOOTSTRAP_UNDERVOLTAGE (R406): a bootstrap falls below its threshold, or recovers. -/
def execBootstrapUndervoltage (v : Fin 8) (h : Half) (recovered : Bool) (s : State) : Result :=
  .next <| s.modValve v fun y => match h with
    | .a => { y with bootLowA := !recovered }
    | .b => { y with bootLowB := !recovered }

/-! ### Fault inputs (R320, R321) -/

/-- A fault input trips: latch, safe levels, record, notice, and the crossings of its valves end (R321). -/
def State.trip (s : State) (g : Fin 3) : State :=
  let s1 := s.modPwm fun p =>
    { p with
      fltLatch := raise p.fltLatch g.val, fltEvt := raise p.fltEvt g.val
      slices := Vector.ofFn fun i => { p.slices[i] with forced := (p.slices[i]).forced || decide (i.val / 4 = g.val) } }
  let s2 := (s1.record 0x201 g.val 0).notice [.word "FLT", .num g.val, .word "TRIP"]
  (allValves.foldl
    (fun t v => if (s.driver v).val / 4 = g.val ∧ (s.valveMode v).runs then t.endCrossing (chV v) .flt else t) s2).refresh

/-- Whether a fault input is enabled, reads active and has not latched (R320, R321). -/
def State.fltTrips (s : State) (g : Fin 3) : Bool :=
  bit (s.reg Reg.fltCfg) g.val && s.fltActive.getLsbD g.val && !s.pwm.fltLatch.getLsbD g.val

/-- FLT_TRIP (R320, R321): a fault input's filter accepts a level, active or not. -/
def execFltTrip (g : Fin 3) (active : Bool) (s : State) : Result :=
  .next <|
    let s1 := s.modPwm fun p => { p with fltPin := put p.fltPin g.val (xor active (bit (s.reg Reg.fltCfg) (3 + g.val))) }
    if s.coreUp && s1.fltTrips g then s1.trip g else s1

/-! ### Limits and the ends of runs (R325 to R327) -/

/-- The limit of an end takes a filtered level. -/
def Valve.setLimit (y : Valve) (e : ValveEnd) (level : Bool) (clk : Nat) : Valve :=
  match e with
  | .open_ => { y with limO := level, limClkO := some clk }
  | .closed => { y with limC := level, limClkC := some clk }

/-- When a limit input last changed. -/
def Valve.limClk (y : Valve) : ValveEnd → Option Nat
  | .open_ => y.limClkO
  | .closed => y.limClkC

/-- The filtered level of a limit. -/
def Valve.limit (y : Valve) : ValveEnd → Bool
  | .open_ => y.limO
  | .closed => y.limC

/-- What an accepted transition of an enabled limit brings: BOTH, CHATTER, WRONGEND or arrival (R325, R327). -/
def State.limitChange (s : State) (v : Fin 8) (e : ValveEnd) : State :=
  let y := s.pwm.valves[v]
  if s.limAsserted v .open_ && s.limAsserted v .closed && !y.fault.getLsbD 1 then (s.limitFault v 1).refresh
  else if (y.run.isSome || y.brakeUntil.isSome) && y.fault = 0
      && decide (fld (s.reg (Reg.mvCfg v)) 15 4 < y.trans) then (s.limitFault v 2).refresh
  else
    match y.run with
    | some r =>
      if !s.limAsserted v e then s
      else if r.target = e then (s.arrive v).refresh else (s.limitFault v 0).refresh
    | none => s

/-- LIMIT_INPUT (R326, R327): a limit input's filtered level changes. A disabled limit, or a predriver in OFF or DRIVE
mode, has no part in any rule. -/
def execLimitInput (v : Fin 8) (e : ValveEnd) (level : Bool) (s : State) : Result :=
  .next <|
    if !s.coreUp || !s.domainOn (48 + v.val) || (s.pwm.valves[v]).limit e == level
        || filterBars (s.reg (Reg.mvLimf v)) ((s.pwm.valves[v]).limClk e) s.clk then s
    else
      let s1 := s.modValve v fun y => y.setLimit e level s.clk
      if !s.limEnabled v e || !(s.valveMode v).runs then s1
      else
        (s1.modValve v fun y =>
          if y.run.isSome || y.brakeUntil.isSome then { y with trans := y.trans + 1 } else y).limitChange v e

/-- Whether a valve's timed end has been reached (R325). -/
def State.timedEndDue (s : State) (v : Fin 8) : Bool :=
  match (s.pwm.valves[v]).run with
  | some r => match r.timedEnd with
    | some t => s.reached t
    | none => false
  | none => false

/-- VALVE_TIMED_END (R70, R325). -/
def execValveTimedEnd (v : Fin 8) (s : State) : Result := .next <| if s.timedEndDue v then (s.arrive v).refresh else s

/-- Whether a run towards a limit end has outlasted MVv.TMAX (R325); a handover and a limit run end as R70 lists. -/
def State.homeTimeoutDue (s : State) (v : Fin 8) : Bool :=
  match (s.pwm.valves[v]).run with
  | some r => s.limEnabled v r.target && decide (r.why ≠ .handover) && decide (r.why ≠ .limit)
      && decide (r.startClk + 1000 * s.regN (Reg.mvTmax v) ≤ s.clk)
  | none => false

/-- HOME_TIMEOUT (R325, R327). -/
def execHomeTimeout (v : Fin 8) (s : State) : Result :=
  .next <| if s.homeTimeoutDue v then (s.limitFault v 3).refresh else s

/-- BRAKE_END (R70, R209, R325): the bridge coasts; a handover or limit action goes on once every valve has stopped. -/
def execBrakeEnd (v : Fin 8) (s : State) : Result :=
  .next <|
    match (s.pwm.valves[v]).brakeUntil with
    | some t =>
      if s.clk < t then s
      else
        let s1 := s.modBridge v fun y => { y with brakeUntil := none, bridge := if y.bridge = .brake then .coast else y.bridge }
        if s.power.handover.isSome || s.unit.limitAction then s1.refresh else s1
    | none => s

/-! ### Position (R330, R331) -/

/-- The estimate moves for 1 ms of the duty in force (R330); a slice that is disabled drives nothing (R319). -/
def State.movePos (s : State) (v : Fin 8) : State :=
  let y := s.pwm.valves[v]
  if y.bridge ≠ .running ∨ !(s.pwm.slices[s.driver v]).running then s
  else
    let unit : Int := 100 * (s.lat (chV v) : Int)
    let total := clampZ 0 (1000 * unit) ((y.pos : Int) * unit + y.posFrac + 1000000 * s.valveDuty v)
    s.modValve v fun z => { z with pos := (total / unit).toNat, posFrac := total % unit }

/-- A position drive that has reached or passed its target brakes and coasts; one towards an end whose limit is enabled
runs to that limit (R331). -/
def State.positionStop (s : State) (v : Fin 8) : State :=
  let y := s.pwm.valves[v]
  match y.run with
  | none => s
  | some r =>
    let toLimit : Bool := (decide (y.ptgt = 0) && s.limEnabled v .closed && decide (r.target = .closed))
      || (decide (y.ptgt = 1000) && s.limEnabled v .open_ && decide (r.target = .open_))
    let passed : Bool := match r.target with
      | .open_ => decide (y.ptgt ≤ y.pos)
      | .closed => decide (y.pos ≤ y.ptgt)
    if decide (r.why = .position) && y.posValid && passed && !toLimit then
      s.modBridge v fun z =>
        { z with run := none, bridge := .brake, brakeUntil := some (s.clk + 1000 * s.regN (Reg.mvBrake v)) }
    else s

/-- A valve whose demand is its position acts on its target now (R331); a drive that goes on after a HALT ends at its target (R204). -/
def State.positionAct (s : State) (v : Fin 8) : State :=
  match (s.pwm.valves[v]).demand with
  | .position => (s.positionStop v).positionAim v
  | .idle => s.positionStop v
  | _ => s

/-- POSITION_UPDATE (R330, R331): every 1 ms. -/
def execPositionUpdate (s : State) : Result :=
  .next <|
    if s.clk < s.pwm.posDue then s
    else
      (allValves.foldl (fun t v => if t.domainOn (48 + v.val) then (t.movePos v).positionAct v else t)
        (s.modPwm fun p => { p with posDue := s.clk + 1000 })).refresh

end Sys2Proof.Machine
end

