-- ==== Sys2Proof/Machine/Pilot.lean ====
section
/-! DEFINITION. The pilot (chapter 13): loop samples and writes in Q4.20, loop states, analogue conversions and trace
banks. -/
namespace Sys2Proof.Machine

open Sys2Proof

/-- The pilot changes. -/
def State.modPilot (s : State) (f : Pilot → Pilot) : State := { s with pilot := f s.pilot }

/-- The fields of LOOPl.CFG in force (Table 13.9). -/
def State.loopFld (s : State) (l : Fin 8) (lo width : Nat) : Nat := fld (s.reg (Reg.loop l 0)) lo width

/-- Whether a loop may leave OFF (R334). -/
def State.loopMayRun (s : State) (l : Fin 8) : Bool :=
  decide (s.phase = .running) && s.domainOn 92 && s.domainOn (84 + l.val) && bit (s.reg (Reg.loop l 0)) 0
    && decide (s.unit.st ≠ .drydock)

/-- A loop that is OFF takes no samples and writes nothing (R334). -/
def Loop.turnOff (x : Loop) : Loop :=
  { x with st := .off, started := false, writes := [], misses := 0, changes := x.changes + b2n (decide (x.st ≠ .off)) }

/-- Every loop that may not run is OFF (R334). -/
def State.settleLoops (s : State) : State :=
  let loops := Vector.ofFn fun (l : Fin 8) => if s.loopMayRun l then s.pilot.loops[l] else (s.pilot.loops[l]).turnOff
  s.modPilot fun p => { p with loops := loops }

/-! ### Q4.20 arithmetic (R343) -/

/-- Saturation at the limits of 24 signed bits. -/
def satQ (n : Int) : Int := clampZ (-8388608) 8388607 n

/-- A product of two Q4.20 values, rounded. -/
def mulQ (a b : Int) : Int := satQ (roundDiv (a * b) 1048576)

/-- A value times 2^k for a signed k, rounded. -/
def shiftQ (n : Int) (k : Int) : Int := satQ (if 0 ≤ k then n * 2 ^ k.toNat else roundDiv n (2 ^ (-k).toNat))

/-! ### Measurement (R340 to R342) -/

/-- Whether the measurement's domain is off or its AIN channel not enabled (R347). -/
def State.pvFault (s : State) (l : Fin 8) : Bool :=
  let k := s.loopFld l 1 5
  if k = 0 then false
  else if k ≤ 8 then !s.domainOn (72 + (k - 1))
  else !s.domainOn 108 || !bit (s.reg Reg.ainCfg) (k - 9)

/-- The frequency of a pulse input in 0.01 Hz, capped (Table 13.2). -/
def State.finFrequency (s : State) (n : Fin 8) : Int :=
  let f := s.motion.fins[n]
  if f.stopped then 0
  else
    let div := fld (s.reg (Reg.finCfg n)) 8 4
    clampZ 0 8388607 (roundDiv 6000000000 (2 ^ div * Nat.max 1 f.period.toNat))

/-- The measurement PV of a loop (Table 13.2); a free value where its source is off or has never converted. -/
def State.loopPv (s : State) (l : Fin 8) : Int :=
  let k := s.loopFld l 1 5
  if k = 0 then 0
  else if s.pvFault l then (Config.lostPv l s.clk).toInt
  else if k ≤ 8 then s.finFrequency ⟨(k - 1) % 8, by omega⟩
  else match s.pilot.ain[k - 9]? with
    | some (some v) => v.toNat
    | _ => (Config.lostPv l s.clk).toInt

/-- The normalised speed, in Q4.20 (R342). -/
def State.normSpeed (s : State) (l : Fin 8) : Int := shiftQ (satQ s.motion.vel.round).natAbs (20 - (s.loopFld l 14 4 : Int))

/-- Whether a free slice follows its carrier, as the loop that writes its duty sees it (R309, R347). -/
def State.sliceFollows (s : State) (i : Fin 12) : Bool :=
  let drivers := allValves.filter fun v => decide (s.valveMode v = .drive) && decide (s.driver v = i) && s.domainOn (48 + v.val)
  s.sliceEnabled i && s.released && !s.handoverActs && !s.groupFault i &&
    if drivers.isEmpty then !s.unit.kill && !s.stopLatched
    else drivers.any fun v => decide (s.valveDemand v = .free)

/-- Whether a loop's output cannot act (OUTFORCED, R347). -/
def State.outForced (s : State) (l : Fin 8) : Bool :=
  let o := s.loopFld l 6 4
  if h : 1 ≤ o ∧ o ≤ 4 then !s.sliceFollows ⟨7 + o, by omega⟩
  else if h : 5 ≤ o ∧ o ≤ 12 then decide (s.valveDemand ⟨o - 5, by omega⟩ ≠ .position)
  else false

/-- The hold causes of a loop, as LOOPl.STAT [6:2] shows them (R347). -/
def State.holdCauses (s : State) (l : Fin 8) : BitVec 5 :=
  let cfg := s.reg (Reg.loop l 0)
  BitVec.ofNat 5 (bitsOf
    [s.handoverActs || s.power.handed,
     bit cfg 22 && !s.motion.moving,
     bit cfg 23 && decide (s.openCount = 0),
     s.outForced l, s.pvFault l])

/-! ### One sample (Table 13.3) -/

/-- What steps 1 to 8 of a sample give. -/
structure LoopTerms where
  pvf : Int
  spe : Int
  en : Int
  p : Int
  d : Int
  ff : Int

/-- Steps 1 to 8 of Table 13.3. -/
def State.loopTerms (s : State) (l : Fin 8) : LoopTerms :=
  let x := s.pilot.loops[l]
  let k (i : Nat) : Int := s.regZ (Reg.loop l i)
  let esh : Int := s.loopFld l 10 4
  let pv := s.loopPv l
  let pvf := if x.started then x.pvf + roundDiv (pv * 256 - x.pvf) (2 ^ s.loopFld l 18 3) else pv * 256
  let vn := s.normSpeed l
  let knn := satQ (k 10 * s.openCount)
  let w := mulQ vn knn
  let rate := bit (s.reg (Reg.loop l 0)) 21
  let spe := if rate then mulQ (k 11) w else k 11
  let e := satQ (spe - round256 pvf)
  let en := shiftQ e (20 - esh)
  { pvf := pvf, spe := spe, en := en
    p := mulQ (k 6) en
    d := if x.started then satQ (-(mulQ (k 8) (shiftQ (pvf - x.pvf) (12 - esh)))) else 0
    ff := if rate then mulQ (k 9) w else satQ (mulQ (k 9) vn + knn) }

/-- What a sample settles: state, integrator, output, and whether anti-windup acted. -/
structure LoopResult where
  st : LoopState
  i : Int
  u : Int
  awu : Bool

/-- Steps 9 to 12 of Table 13.3, and the states of Table 13.4 with the bumpless return of R348. -/
def State.loopResult (s : State) (l : Fin 8) (x : Loop) (t : LoopTerms) (mout : Int) : LoopResult :=
  let omin : Int := s.regN (Reg.loop l 4)
  let omax : Int := s.regN (Reg.loop l 5)
  let offs := s.regZ (Reg.loop l 12)
  if s.holdCauses l ≠ 0 then { st := .hold, i := x.i, u := x.u, awu := false }
  else if bit (s.reg (Reg.loop l 13)) 0 then { st := .manual, i := x.i, u := clampZ omin omax mout, awu := false }
  else if x.fromManual then
    { st := .run, i := satQ (mout - satQ (offs + t.p + t.d + t.ff)), u := clampZ omin omax mout, awu := false }
  else
    let kien := mulQ (s.regZ (Reg.loop l 7)) t.en
    let ic := satQ (x.i + kien)
    let r := satQ (offs + t.p + ic + t.d + t.ff)
    if (omax < r ∧ 0 < kien) ∨ (r < omin ∧ kien < 0) then
      { st := .run, i := x.i, u := clampZ omin omax (satQ (offs + t.p + x.i + t.d + t.ff)), awu := true }
    else { st := .run, i := ic, u := clampZ omin omax r, awu := false }

/-- Whether a loop samples now: its grid has a point here that has not been taken (R335). -/
def State.sampleDue (s : State) (l : Fin 8) : Bool :=
  let period : Int := 1000 * (s.regN (Reg.loop l 1) : Int)
  s.loopMayRun l && decide (0 < period) && decide (((s.now : Int) - s.regN (Reg.loop l 2)) % period = 0)
    && decide ((s.pilot.loops[l]).lastAt ≠ some s.time)

/-- The loop as it stands when it samples: one that leaves OFF starts anew (R334). -/
def Loop.wake (x : Loop) : Loop := if x.st = .off then { x with i := 0, pvf := 0, started := false, fromManual := false } else x

/-- A sample of a loop (R335, R343, R346, R348): MAN that has changed to 1 takes the output in force as MOUT. -/
def State.takeSample (s : State) (l : Fin 8) : State :=
  let s0 := s.modLoop l Loop.wake
  let x := s0.pilot.loops[l]
  let man := bit (s.reg (Reg.loop l 13)) 0
  let s1 := if man && !x.man && x.started then s0.setReg (Reg.loop l 14) (z24 x.u) else s0
  let t := s1.loopTerms l
  let r := s1.loopResult l x t (s1.regN (Reg.loop l 14))
  s1.modLoop l fun y =>
    { y with
      st := r.st, changes := y.changes + b2n (decide (y.st ≠ r.st)), causes := s1.holdCauses l, i := r.i, u := r.u, pvf := t.pvf, p := t.p, d := t.d, ff := t.ff, spe := t.spe
      started := true, man := man, awu := r.awu
      fromManual := match r.st with
        | .manual => true
        | .run => false
        | _ => y.fromManual
      atMax := decide (r.u = s1.regN (Reg.loop l 5)), atMin := decide (r.u = s1.regN (Reg.loop l 4))
      scnt := y.scnt + 1, lastAt := some s.time
      writes := y.writes ++ [{ due := s.clk + s.regN (Reg.loop l 3), u := r.u, out := s.loopFld l 6 4 }] }

/-- LOOP_SAMPLE (R335): a grid point of a loop. -/
def execLoopSample (l : Fin 8) (s : State) : Result := .next <| if s.sampleDue l then s.takeSample l else s

/-- The value of a sample reaches its output (R344). -/
def State.writeOutput (s : State) (o : LoopOutput) : State :=
  if h : 1 ≤ o.out ∧ o.out ≤ 4 then
    s.modSlice ⟨7 + o.out, by omega⟩ fun w => { w with shadow := z24 (roundDiv (o.u * 16777215) 1048576) }
  else if h : 5 ≤ o.out ∧ o.out ≤ 12 then
    let v : Fin 8 := ⟨o.out - 5, by omega⟩
    ((s.modValve v fun y => { y with ptgt := (roundDiv (o.u * 1000) 1048576).toNat }).positionAct v).refresh
  else s

/-- Whether a trace bank captures. -/
def TraceState.captures : TraceState → Bool
  | .fill => true
  | .wait => true
  | .post => true
  | _ => false

/-- Every bank that follows a loop owes an entry for its write phase (R355). -/
def State.oweTraces (s : State) (l : Fin 8) : State :=
  let owe (x : Trace) : Trace := if x.st.captures && decide (fld x.cfg 6 4 = l.val) then { x with owed := true } else x
  s.modPilot fun p => { p with traces := p.traces.map owe }

/-- LOOP_WRITE (R337, R338): a loop's write phase; `computed` says its computation has ended. -/
def execLoopWrite (l : Fin 8) (computed : Bool) (s : State) : Result :=
  .next <|
    match (s.pilot.loops[l]).writes with
    | [] => s
    | o :: rest =>
      if s.clk < o.due then s
      else
        let s1 := (s.modLoop l fun x => { x with writes := rest, misses := if computed then 0 else x.misses + 1 }).oweTraces l
        if computed then s1.writeOutput o
        else (s1.modPilot fun p => { p with evt := raise p.evt l.val }).record 0x241 l.val 0

/-! ### Analogue inputs (R353, R354) -/

/-- The channel the converter takes next: the first enabled one from `n` on, wrapping. -/
def nextAin (enabled : Nat → Bool) (n : Nat) : Option (Fin 12) :=
  ((List.finRange 12).map fun (k : Fin 12) => (⟨(n + k.val) % 12, by omega⟩ : Fin 12)).find? fun k => enabled k.val

/-- The code of a conversion: against the internal 2.048 V or AREF, in µV; `vref` 0 is no usable reference (R354, R407). -/
def ainCodeOf (internal : Bool) (vin vref clk : Nat) : BitVec 14 :=
  if vref = 0 then Config.ainCode clk
  else BitVec.ofNat 14 (Nat.min 16383 (divNear (16384 * vin) (if internal then 2048000 else vref)))

/-- AIN_CONVERSION (R353, R354): the next enabled channel, in ascending order. -/
def execAinConversion (vin vref : Nat) (s : State) : Result :=
  .next <|
    if !s.coreUp || !s.domainOn 108 then s
    else match nextAin (bit (s.reg Reg.ainCfg)) s.pilot.ainNext with
      | none => s
      | some n =>
        let v := ainCodeOf (!bit (s.reg Reg.ainCfg) (12 + n.val)) vin vref s.clk
        s.modPilot fun p => { p with ain := p.ain.set n.val (some v) n.isLt, ainNext := n.val + 1 }

/-! ### Trace banks (R355 to R357) -/

/-- A loop node of Table 13.6. -/
def Loop.node (x : Loop) : Nat → Int
  | 0 => round256 x.pvf
  | 1 => x.spe
  | 2 => x.p
  | 3 => x.i
  | 4 => x.d
  | 5 => x.ff
  | _ => x.u

/-- The value of a node (Table 13.6); that of a loop that is OFF is 0 (R355). -/
def State.nodeValue (s : State) (n : Nat) : Word :=
  if h : n < 56 then
    let x := s.pilot.loops[n / 7]
    if x.st = .off then 0 else z24 (x.node (n % 7))
  else match n with
  | 56 => s.readOdo 9
  | 57 => w24 s.openCast
  | 58 => w24 s.openLanded
  | 59 => s.readOdo 11
  | 60 => mmOf s.motion.pos
  | 61 => match s.pilot.ain[0] with
    | some v => v.setWidth 24
    | none => 0
  | 62 => (s.filtered 0).setWidth 24
  | _ => tlo s.time

/-- Whether an entry meets a bank's trigger (Table 13.7). -/
def Trace.triggers (x : Trace) (entry : Word) (loopNow : Option Nat) : Bool :=
  let level := x.level.toInt
  let v := entry.toInt
  let rising := match x.prev with
    | some p => decide (p.toInt < level) && decide (level ≤ v)
    | none => false
  let falling := match x.prev with
    | some p => decide (level ≤ p.toInt) && decide (v < level)
    | none => false
  match fld x.cfg 10 4 with
  | 1 => rising
  | 2 => falling
  | 3 => rising || falling
  | 4 => decide (level ≤ v)
  | 5 => decide (v < level)
  | 6 => x.leaderHit
  | 7 => x.prevLoop.isSome && decide (x.prevLoop ≠ loopNow)
  | _ => false

/-- A bank takes its trigger entry (R356). -/
def Trace.takeTrigger (x : Trace) (entry : Word) (now : ChainTime) : Trace :=
  { x with
    tidx := x.entries.length, triggered := true, trigTime := now, forced := false
    entries := x.entries ++ [entry], left := 2047 - x.pre
    st := if x.pre = 2047 then .done else .post }

/-- A bank captures an entry (R356). -/
def Trace.capture (x : Trace) (entry : Word) (loopNow : Option Nat) (now : ChainTime) : Trace :=
  let y := match x.st with
    | .fill =>
      if x.forced then x.takeTrigger entry now
      else { x with entries := x.entries ++ [entry], st := if x.pre ≤ x.entries.length + 1 then .wait else .fill }
    | .wait =>
      if x.forced || x.triggers entry loopNow then x.takeTrigger entry now
      else { x with entries := (x.entries ++ [entry]).drop (x.entries.length + 1 - x.pre) }
    | .post => { x with entries := x.entries ++ [entry], left := x.left - 1, st := if x.left ≤ 1 then .done else .post }
    | _ => x
  { y with prev := some entry, prevLoop := loopNow, owed := false, lastAt := some now }

/-- The bank that follows a bank (mode 6 of Table 13.7). -/
def follower (b : Fin 4) : Fin 4 := ⟨(b.val + 1) % 4, by omega⟩

/-- How often the loop that a bank's TSRC names has changed its state. -/
def State.sourceLoop (s : State) (x : Trace) : Option Nat := (s.pilot.loops[fld x.cfg 6 4]?).map (·.changes)

/-- The banks in the order in which they capture in one cycle: a bank that follows another after it (mode 6 of Table 13.7). -/
def State.traceOrder (s : State) : List (Fin 4) :=
  let first : Fin 4 :=
    match ([0, 1, 2, 3] : List (Fin 4)).find? (fun b => decide (fld (s.pilot.traces[b]).cfg 10 4 ≠ 6)) with
    | some b => b
    | none => (([0, 1, 2, 3] : List (Fin 4)).find? fun b => (s.pilot.traces[b]).forced).getD 0
  ([0, 1, 2, 3] : List (Fin 4)).map fun k => first + k

/-- Whether a bank captures now (R355): a write phase of its loop, or its interval from the ARM. -/
def State.captureDue (s : State) (b : Fin 4) : Bool :=
  let x := s.pilot.traces[b]
  x.st.captures && s.domainOn (93 + b.val) &&
    if fld x.cfg 6 4 < 8 then x.owed
    else decide (s.since x.armedAt % Nat.max 1 x.interval = 0) && decide (x.lastAt ≠ some s.time)

/-- TRACE_CAPTURE (R355 to R357). -/
def execTraceCapture (b : Fin 4) (s : State) : Result :=
  .next <|
    if !s.captureDue b then s
    else
      let x := s.pilot.traces[b]
      let y := x.capture (s.nodeValue (fld x.cfg 0 6)) (s.sourceLoop x) s.time
      let s1 := s.modTrace b fun _ => y
      if y.triggered && !x.triggered && decide ((s1.pilot.traces[follower b]).st = .wait) then
        s1.modTrace (follower b) fun z => { z with leaderHit := true }
      else s1

end Sys2Proof.Machine
end

