-- ==== Sys2Proof/Machine/Ports.lean ====
section
/-! DEFINITION. The Wyovoha chain (chapter 6): receivers, insertion on UP, tides on arrival, enumeration and hop delays,
sweeps and TURN, the downstream link, and helm swaps. Lines, KILL, the effect of a tide and holdover are elsewhere. -/
namespace Sys2Proof.Machine

open Sys2Proof

/-- The chain changes. -/
def State.modChain (s : State) (f : Chain → Chain) : State := { s with chain := f s.chain }

/-- The downstream port. -/
def State.downPort (s : State) : Port := s.chain.upPort.other

/-! ### Receivers (R133, R134) -/

/-- Whether a character is one of K = 0 or K.00 to K.0C (R134). -/
def validChar (c : ChainChar) : Bool := decide (c.toNat < 256) || decide (c.toNat - 256 ≤ 0x0C)

/-- Whether a standby helm stands behind a port (R159). After a swap a FARHELM that is still shown marks none at the port that has become the upstream
port (DESIGN CHOICE, log 76). -/
def State.farHelmAt (s : State) (p : Port) : Bool :=
  s.chain.farHelm && decide (s.chain.farPort = p) && decide (p ≠ s.chain.upPort)

/-- INVALID_CHARACTER (R133, R134, R159): one CHAR error; forwarded unchanged, but for what a standby helm sends, which is discarded
with a FRAME error. At a receiver that is not aligned every character is invalid, and IDLE is forwarded in its place. The gangway judges
nothing (R163). -/
def execInvalidCharacter (port : Port) (ch : ChainChar) (s : State) : Result :=
  .next <|
    if !s.coreUp then s.gangwayPass port (.char ch)
    else if !s.portOn port then s
    else if !(s.chain.port port).aligned then s.deaf port 1
    else if validChar ch then s
    else
      let s1 := s.modPort port fun x => { x with eChar := satInc x.eChar }
      if s.farHelmAt port then s1.frameError port else s1.forward port (.char ch)

/-- RECEIVER_ALIGNED (R133): 8 IDLE at one bit position. -/
def execReceiverAligned (port : Port) (s : State) : Result :=
  .next <| if !s.coreUp || !s.portOn port then s else s.modPort port fun x => { x with aligned := true }

/-- ALIGNMENT_LOST (R133): one ALIGN error; IDLE is forwarded in place of the input. -/
def execAlignmentLost (port : Port) (s : State) : Result :=
  .next <|
    if !s.coreUp || !(s.chain.port port).aligned then s
    else (s.modPort port fun x => { x with aligned := false, eAlign := satInc x.eAlign }).forwardIdle port 1

/-! ### Insertion on UP (R140) -/

/-- A frame or sequence of the unit's own as it leaves: replies and notices in generated form with their checksum
(R176, R180). -/
def UpItem.wire (c : Chain) : UpItem → WireItem
  | .reply b _ => .frame 0x01 (bytesOf (withChecksum (replyText c b)))
  | .notice t => .frame 0x0B (bytesOf (withChecksum (noticeText c t)))
  | .seq k b => .seq k b

/-- Whether an item is the reply of a line whose reset waits for it. -/
def UpItem.startsReset : UpItem → Bool
  | .reply _ r => r
  | _ => false

/-- Whether UP has a gap in which the unit may insert (R135, R140): what was inserted before has left, no frame or sequence from the UP
buffer is half sent, the buffer holds fewer than 256 characters, and the port's logic is on (R28). -/
def State.upGap (s : State) : Bool :=
  s.portOn s.chain.upPort && decide (s.chain.upBusy < 4800) && decide (s.chain.upLeft = 0) && decide (s.chain.upBuf.length < 256)

/-- The IDLE characters that go before an insertion of `n` characters: 2, or 8 where else more than 1024 characters would be inserted
without a run of 8 (R135). -/
def Chain.idlesBefore (c : Chain) (n : Nat) : Nat := if 1024 < c.upSince + n + 4 + 8 then 8 else 2

/-- An item of the unit's own is put on UP behind its IDLE characters, and 2 behind it, all of which take up the pair until they have left (R135,
R140). -/
def State.insertUp (s : State) (w : WireItem) : State :=
  let n := w.chars.length
  let k := s.chain.idlesBefore n
  { s with chain := { s.chain with
      upWire := s.chain.upWire ++ List.replicate k (.char 0x100) ++ [w] ++ List.replicate 2 (.char 0x100)
      upSince := if k = 8 then n + 2 else s.chain.upSince + n + 4
      upBusy := s.chain.upBusy + (k + n + 2) * s.clocks.charTime } }

/-- An item of the unit's own leaves on UP; with a TURN its sweep is no longer outstanding (R153). -/
def Chain.itemLeaves (c : Chain) (u : UpItem) : Chain :=
  match u with
  | .seq code bytes =>
    if code = 0x0A then
      { c with outstanding := c.outstanding.eraseP fun x => x.own &&
          if bytes.getD 0 0 = 1 then x.isEnum else decide (x.crc = bytes.getD 2 0 ∧ x.seq = bytes.getD 3 0) && !x.isEnum }
    else c
  | _ => c

/-- UP_INSERTION (R135, R140, R148): the next of the unit's own frames leaves on UP, and what arrives meanwhile enters the UP
buffer. Nothing is inserted without a gap or while an enumeration keeps UP quiet. -/
def execUpInsertion (arriving : List ChainChar) (s : State) : Result :=
  .next <|
    if !s.onChain || !s.upGap || s.chain.enumDue.isSome then s
    else
      match s.chain.upQ with
      | [] => s
      | u :: rest =>
        let s1 := (s.insertUp (u.wire s.chain)).modChain fun c => { c.itemLeaves u with upQ := rest, upBuf := (c.upBuf ++ arriving).take 1024 }
        if u.startsReset then s1.resetReplyLeft (s1.chain.upBusy / 4800) else s1

/-! ### Tides on arrival (R144 to R146) -/

/-- A TIDE that applies nothing: its CRC fails, or four are pending (R145, R146). -/
def State.tideBad (s : State) : State := (s.record 0x085 63 0).notice [.word "TIDE", .word "BAD"]

/-- The distance of a target TLO ahead of chain time, modulo 2^24 (R144). -/
def State.tideAhead (s : State) (target : Word) : Nat := (target - tlo s.time).toNat

/-- A tide joins the pending ones with the writes staged before its K.03 (R144, R146); a late one is due 2 ms later
(R145). The command is the moment of K.03; a TIDE sequence as a whole is four characters later (DESIGN CHOICE, log 91). -/
def State.takeTide (s : State) (target : Word) : State :=
  let ahead := s.tideAhead target
  let late := decide (s.clocks.mode = .unset) || decide (ahead < 2000) || decide (8388607 < ahead)
  let due := if late then TideDue.late (s.clk + 2000) target else .atTime (after s.time ahead)
  { s with manil := { s.manil with
      tides := s.manil.tides ++ [{ seq := s.manil.tideCount, due := due, writes := s.manil.staged }]
      staged := [], tideCount := s.manil.tideCount + 1 } }

/-- TIDE (R144 to R146). -/
def execTide (seq : SeqArrival) (s : State) : Result :=
  .next <|
    s.receive s.dnIn (seq.wire 0x03) fun s =>
      let s1 := s.sendDn (seq.wire 0x03)
      match seq.data 4 with
      | none => if seq.isWhole 4 then (s1.crcError s.chain.upPort).tideBad else s1.frameError s.chain.upPort
      | some data =>
        if 4 ≤ s.manil.tides.length then s1.tideBad else s1.takeTide (BitVec.ofNat 24 (leNat data))

/-! ### Enumeration and hop delays (R147 to R152) -/

/-- The unit's forwarding delay: 18 CK cycles at the recognised rate, rounded to 1/4096 µs (R149). -/
def State.fwdDelay (s : State) : Nat := ckCycles 18 s.clocks.rate.val

/-- The echoes of the MEASUREs are judged (R148): at least 8 valid ones give CHN.DOWNHOP their mean; fewer clear it. -/
def State.judgeEchoes (s : State) : State :=
  s.modChain fun c =>
    if c.enumDue.isNone then c
    else if 8 ≤ c.echoes then
      { c with downHop := BitVec.ofNat 16 ((c.echoSum + c.echoes) / (2 * c.echoes)), downHopValid := true
               farHelm := c.echoHelm, farPort := c.upPort.other }
    else { c with downHopValid := false, farHelm := false }

/-- ENUM_MEASURE (R147, R148): forwarded, and echoed by a single K.05 on UP; the first one starts the quiet on UP. -/
def execEnumMeasure (seq : SeqArrival) (s : State) : Result :=
  .next <|
    s.receive s.dnIn (seq.wire 0x05) fun s =>
      let s1 := (s.sendDn (seq.wire 0x05)).seizeUp 0x105
      match seq.data 7 with
      | none => s1.seqError s.chain.upPort seq 7
      | some _ =>
        if s.chain.enumDue.isSome then s1
        else s1.modChain fun c =>
          { c with enumDue := some (s.clk + 20000), echoes := 0, echoSum := 0, echoHelm := false }

/-- ENUM_ECHO (R147): the echo's round trip RT, in 1/4096 µs, counts when RT less 18 CK cycles lies between 0 and 400 ns;
half of that is the cable's delay, whose doubles are summed. The K.05 is absorbed. -/
def execEnumEcho (fromHelm : Bool) (roundTrip : Nat) (s : State) : Result :=
  .next <|
    s.receive s.upIn (if fromHelm then .seq 0x05 [0xFF] else .char 0x105) fun s =>
    if s.chain.enumDue.isNone || decide (s.clocks.rate = 0) || decide (roundTrip < s.fwdDelay)
        || decide (400 * 4096 < (roundTrip - s.fwdDelay) * 1000) then s
    else s.modChain fun c =>
      { c with echoes := c.echoes + 1, echoSum := c.echoSum + (roundTrip - s.fwdDelay), echoHelm := fromHelm }

/-- A unit's address, count and event flags as an ASSIGN changes them (R149 to R151): the address it takes, the count it
forwards, and the flags it sets. An armed unit that finds 128 keeps its address and sets ENUMKEPT alone (DESIGN CHOICE, log 96). -/
def State.assignOf (s : State) (count : Nat) (pin : Bool) : Nat × Nat × List Nat :=
  let p := s.regN Reg.chnPin
  let kept := s.unit.st.armed
  let next :=
    if 128 ≤ count then (0, 128, [7])
    else if pin && p ≠ 0 then (if count < p then (p, p, []) else (count + 1, count + 1, [6]))
    else (count + 1, count + 1, [])
  if kept then (s.chain.addr.toNat, Nat.min 128 (count + 1), [8]) else next

/-- A sweep that is forwarded downstream joins those outstanding, under the next sequence number; of an end unit's the TURN is its own (R153, Table
6.6). -/
def Chain.newSweep (c : Chain) (crc : Byte) (isEnum own : Bool) : Chain :=
  { c with sweepSeq := c.sweepSeq + 1
           outstanding := c.outstanding ++ [{ crc := crc, seq := c.sweepSeq + 1, isEnum := isEnum, own := own }] }

/-- A TURN passes: the sweep it answers is no longer outstanding; one that answers none of them counts for the oldest (R153). -/
def Chain.turnPassed (c : Chain) (answers : Sweep → Bool) : Chain :=
  { c with outstanding := match c.outstanding.find? answers with
      | some x => c.outstanding.erase x
      | none => c.outstanding.drop 1 }

/-- An ASSIGN or HOP that arrives with END clear (R149, R152, R155). At the end unit what the quiet held back leaves before its own TURN ENUM, in
the order of R140 (DESIGN CHOICE, log 92). ENUM is set by each one that is taken, and a HOP that brings the count 128 takes it on as it is (DESIGN
CHOICE, log 96). -/
def State.takeEnum (s : State) (func count : Nat) (delay : Nat) (rate : Byte) : State :=
  let assign := func % 4 = 2
  let (addr, fwdCount, flags) :=
    if assign then s.assignOf count (func.testBit 6) else (s.chain.addr.toNat, Nat.min 128 (count + 1), [])
  let s1 := s.judgeEchoes
  let c := s1.chain
  let isEnd := !c.downHopValid || c.farHelm
  let fwd := (if c.downHopValid then delay + s.fwdDelay + c.downHop.toNat else delay) % 2 ^ 24
  let sent := BitVec.ofNat 8 (func % 128 + (if isEnd then 128 else 0)) :: BitVec.ofNat 8 fwdCount :: leBytes 3 fwd ++ [rate]
  let s2 := s1.modChain fun c =>
    let c1 := { c with
      addr := BitVec.ofNat 8 addr
      freeEnd := c.freeEnd || !c.downHopValid
      evt := flags.foldl raise (raise c.evt 5) }
    match c.upPort with
    | .bow => { c1 with hopB := delay, hopBValid := true }
    | .stern => { c1 with hopS := delay, hopSValid := true }
  let s3 := (s2.sendDn (.seq 0x05 (withCrc sent))).modChain fun c => c.newSweep 0 true isEnd
  if isEnd then
    let turn := (1 : Byte) :: BitVec.ofNat 8 fwdCount :: leBytes 3 fwd ++ [BitVec.ofNat 8 (b2n c.farHelm)]
    let far := fwd - delay - s.fwdDelay
    (s3.queueUp (.seq 0x0A (withCrc turn))).modChain fun c =>
      let c1 := { c with enumDue := none }
      match c.upPort with
      | .bow => { c1 with hopS := if c.farHelm then far else c.hopS, hopSValid := c.farHelm }
      | .stern => { c1 with hopB := if c.farHelm then far else c.hopB, hopBValid := c.farHelm }
  else s3

/-- An ENUM sequence with a function other than MEASURE (R149): with END set it is forwarded unchanged and ignored. -/
def State.enumPass (s : State) (seq : SeqArrival) : State :=
  match seq.data 7 with
  | none => (s.sendDn (seq.wire 0x05)).seqError s.chain.upPort seq 7
  | some data =>
    let func := (data.getD 0 0).toNat
    if func.testBit 7 then s.sendDn (seq.wire 0x05)
    else s.takeEnum func (data.getD 1 0).toNat (leNat ((data.drop 2).take 3)) (data.getD 5 0)

/-- ENUM_ASSIGN (R149 to R152). -/
def execEnumAssign (seq : SeqArrival) (s : State) : Result :=
  .next (s.receive s.dnIn (seq.wire 0x05) fun s => s.enumPass seq)

/-- ENUM_HOP (R149, R152): as ASSIGN, addresses untouched. -/
def execEnumHop (seq : SeqArrival) (s : State) : Result :=
  .next (s.receive s.dnIn (seq.wire 0x05) fun s => s.enumPass seq)

/-- ENUM_QUIET_EXPIRY (R148): 20 ms after the first MEASURE the unit may insert again. -/
def execEnumQuietExpiry (s : State) : Result :=
  .next <|
    match s.chain.enumDue with
    | some due => if due ≤ s.clk then s.judgeEchoes.modChain fun c => { c with enumDue := none } else s
    | none => s

/-- A TURN of kind ENUM as the unit forwards it, counted as passed at its K.0A (R153). -/
def State.enumTurned (s : State) : State := s.modChain fun c => c.turnPassed (·.isEnum)

/-- TURN_ENUM (R152, R153, R159): a standby helm's is discarded; of another the far-end delay is D_end less the cumulative delay and the forwarding delay where a far helm
answered; else it is invalid. -/
def execTurnEnum (seq : SeqArrival) (s : State) : Result :=
  .next <|
    s.receive s.upIn (seq.wire 0x0A) fun s =>
      if s.farHelmAt s.downPort then s.frameError s.downPort
      else
        let s1 := (s.relayUp (seq.wire 0x0A)).enumTurned
        match seq.data 7 with
        | none => s1.seqError s.downPort seq 7
        | some data =>
          let far := (data.getD 5 0).getLsbD 0
          let hop := leNat ((data.drop 2).take 3) - s.chain.hop - s.fwdDelay
          s1.modChain fun c =>
            let c1 := { c with enumDue := none }
            match c.upPort with
            | .bow => { c1 with hopS := if far then hop else c.hopS, hopSValid := far }
            | .stern => { c1 with hopB := if far then hop else c.hopB, hopBValid := far }

/-! ### Sweeps, TURN and BREAK (R153 to R155) -/

/-- A TURN SWEEP of this unit (Table 6.6). -/
def Chain.turnOf (c : Chain) (crc seq : Byte) (brk : Bool) : UpItem :=
  .seq 0x0A (withCrc [2, c.addr, crc, seq, 0, if brk then 2 else 0])

/-- A BREAK of this unit (Table 6.3). -/
def Chain.breakOf (c : Chain) : UpItem := .seq 0x09 (withCrc [c.addr])

/-- What a unit sends at the end of a sweep: TURN, with BREAK before it where the link is lost and FREEEND is clear
(R155). -/
def State.sendTurn (s : State) (crc seq : Byte) : State :=
  let brk := !s.chain.dnLink && !s.chain.freeEnd
  let s1 := if brk then s.queueUp s.chain.breakOf else s
  s1.queueUp (s.chain.turnOf crc seq brk)

/-- TURN_SWEEP (R153, R159): counted as passed when its K.0A is forwarded, whatever its CRC; a standby helm's is discarded. -/
def execTurnSweep (seq : SeqArrival) (s : State) : Result :=
  .next <|
    s.receive s.upIn (seq.wire 0x0A) fun s =>
      if s.farHelmAt s.downPort then s.frameError s.downPort
      else
        let s1 := s.relayUp (seq.wire 0x0A)
        match seq.data 7 with
        | none => (s1.seqError s.downPort seq 7).modChain fun c => c.turnPassed fun _ => false
        | some data => s1.modChain fun c =>
            c.turnPassed fun x => decide (x.crc = data.getD 2 0 ∧ x.seq = data.getD 3 0) && !x.isEnum

/-- The sweep whose TURN a held reply owes. -/
def HeldReply.turn : HeldReply → Option Sweep
  | .muster _ turn => turn
  | .reply _ _ turn => turn

/-- Whether the reply a TURN follows is still to come: its line waits in the queue, or its reply is held (R153). -/
def State.replyPending (s : State) (d : TurnDue) : Bool :=
  ((s.manil.chainQ.map (·.turn)) ++ s.manil.held.map HeldReply.turn).any fun t =>
    match t with
    | some x => decide (x.crc = d.crc ∧ x.seq = d.seq)
    | none => false

/-- The TURN an end unit sends without a reply of its own (R153). -/
def State.turnDue (s : State) : Option TurnDue :=
  s.chain.turnsDue.find? fun d => decide (d.due ≤ s.clk) && !s.replyPending d

/-- TURN_SWEEP_TIMEOUT (R153): 20 ms after a sweep line's EOL an end unit without a reply sends its TURN. -/
def execTurnSweepTimeout (s : State) : Result :=
  .next <|
    if !s.onChain then s
    else
      match s.turnDue with
      | none => s
      | some d => (s.modChain fun c => { c with turnsDue := c.turnsDue.erase d }).sendTurn d.crc d.seq

/-- DOWNSTREAM_LINK_LOST (R154, R155, R167): the outstanding sweeps are closed in order, each with BREAK and TURN unless
FREEEND is set, and counts as outstanding until that TURN leaves; those whose TURN the unit owes as an end unit have it after its reply. -/
def execDownstreamLinkLost (s : State) : Result :=
  .next <|
    if !s.onChain || !s.chain.dnLink then s
    else
      let p := s.downPort
      let s1 := ((s.modChain fun c => { c with dnLink := false }).chnEvt 0).modPort p fun x =>
        { x with eLink := satInc x.eLink }
      let s2 := (s1.record 0x082 p.code 0).notice [.word "LINK", .word "LOST", .word p.word]
      ((s.chain.outstanding.filter fun x => !x.own).foldl (fun t x => t.sendTurn x.crc x.seq) s2).modChain fun c =>
        { c with outstanding := c.outstanding.map fun x => if x.own then x else { x with isEnum := false, own := true } }

/-- DOWNSTREAM_LINK_UP (R154, R155): the link is up, and FREEEND clears. -/
def execDownstreamLinkUp (s : State) : Result :=
  .next <|
    if !s.onChain || s.chain.dnLink then s
    else
      let p := s.downPort
      (((s.modChain fun c => { c with dnLink := true, freeEnd := false }).chnEvt 1).record 0x083 p.code 0).notice
        [.word "LINK", .word "UP", .word p.word]

/-- UPSTREAM_PORT_TAKEN (R157, R162, R163): the port at which 16 CK edges arrived, the bow port where both did; the gangway's upstream
side where the core does not run. A changed port
sets SEGMENT; after a helm swap the swap is recorded and the held notices are released. -/
def execUpstreamPortTaken (bow stern : Bool) (s : State) : Result :=
  .next <|
    let p := if bow then Port.bow else .stern
    if !(bow || stern) then s
    else if !s.coreUp then s.modChain fun c => if c.gangway then { c with gangwayUp := p } else c
    else if !s.chain.released then s
    else
      let s1 := s.modChain fun c => { c with released := false, upPort := p, hadPort := true }
      let s2 := if p = s.chain.upPort || !s.chain.hadPort then s1 else s1.chnEvt 2
      if s.chain.swapHold then
        ((s2.chnEvt 3).record 0x081 63 (w24 p.code)).modChain fun c =>
          { c with swapHold := false, upQ := c.upQ ++ c.upHeld, upHeld := [] }
      else s2

/-! ### Helm swap (R159 to R162) -/

/-- The end a HELM sequence names: the bow for 0x00, the stern for 0x01. -/
def helmEnd (b : Byte) : Option Port := if b = 0 then some .bow else if b = 1 then some .stern else none

/-- A sequence sent back out of the port at which a request arrived (R160): on UP in its turn, on DN at once. -/
def State.sendBack (s : State) (p : Port) (code : Byte) (e : Port) : State :=
  let bytes := withCrc [BitVec.ofNat 8 e.code]
  if p = s.chain.upPort then s.queueUp (.seq code bytes) else s.sendDn (.seq code bytes)

/-- A valid HELMQ for the end `e` at port `p` (R160, R161): a meeting is decided; a request that meets no far helm is
denied; any other is forwarded and pending. -/
def State.takeHelmq (s : State) (p e : Port) (bytes : List Byte) : State :=
  let pend (t : State) : State :=
    (t.forward p (.seq 0x06 bytes)).modChain fun c =>
      { c with helmReq := some { target := e, arrived := p, due := t.clk + 100000 } }
  let meeting := match s.chain.helmReq with
    | some r => if r.arrived ≠ p then some r else none
    | none => none
  match meeting with
  | some r =>
    if r.target = e then s.sendBack p 0x07 e
    else if p = .bow then pend s
    else (s.sendBack p 0x08 e).chnEvt 4
  | none =>
    if p = s.chain.upPort ∧ e = p.other ∧ !s.chain.dnLink ∧ !s.chain.farHelm then
      ((s.forward p (.seq 0x06 bytes)).sendBack p 0x08 e).chnEvt 4
    else pend s

/-- A HELM sequence at a port: discarded with its error, or its end (R137, R138). One that names neither end is forwarded and counts for nothing
(DESIGN CHOICE, log 97). -/
def State.helmSeq (s : State) (p : Port) (code : Byte) (seq : SeqArrival) (f : State → Port → List Byte → State) : State :=
  match seq with
  | .cut _ => if s.farHelmAt p then s.frameError p else (s.forward p (seq.wire code)).frameError p
  | .whole bytes =>
    match seq.data 2 with
    | none => (s.forward p (.seq code bytes)).seqError p seq 2
    | some data =>
      match helmEnd (data.getD 0 0) with
      | some e => f s e bytes
      | none => s.forward p (.seq code bytes)

/-- HELMQ (R160, R161). -/
def execHelmq (port : Port) (seq : SeqArrival) (s : State) : Result :=
  .next <|
    s.receive port (seq.wire 0x06) fun s => s.helmSeq port 0x06 seq fun t e bytes => t.takeHelmq port e bytes

/-- HELMG (R160, R162): the pending request for its end clears, and new notices are held until the new upstream port is
taken. -/
def execHelmg (port : Port) (seq : SeqArrival) (s : State) : Result :=
  .next <|
    s.receive port (seq.wire 0x07) fun s => s.helmSeq port 0x07 seq fun t e bytes =>
      (t.forward port (.seq 0x07 bytes)).modChain fun c =>
        { c with swapHold := true
                 helmReq := c.helmReq.filter fun r => decide (r.target ≠ e) }

/-- HELMD (R160): the pending request for its end clears; SWAPDENIED, which Table 6.9 only names, is set where a HELMD passes, as where the unit
sends one (DESIGN CHOICE, log 97). -/
def execHelmd (port : Port) (seq : SeqArrival) (s : State) : Result :=
  .next <|
    s.receive port (seq.wire 0x08) fun s => s.helmSeq port 0x08 seq fun t e bytes =>
      ((t.forward port (.seq 0x08 bytes)).chnEvt 4).modChain fun c =>
        { c with helmReq := c.helmReq.filter fun r => decide (r.target ≠ e) }

/-- HELMQ_EXPIRY (R160): a request is pending for at most 100 ms. -/
def execHelmqExpiry (s : State) : Result :=
  .next <|
    match s.chain.helmReq with
    | some r => if r.due ≤ s.clk then s.modChain fun c => { c with helmReq := none } else s
    | none => s

end Sys2Proof.Machine
end

