-- ==== Sys2Proof/Machine/Stops.lean ====
section
/-! DEFINITION. The latches and the kill tree as events (chapters 6, 8 and 14): KILL, safety inputs, discrepancy faults, and
the start of a pair. -/
namespace Sys2Proof.Machine

open Sys2Proof

/-- The unit's own status changes. -/
def State.modUnit (s : State) (f : UnitStatus → UnitStatus) : State := { s with unit := f s.unit }

/-- The kill tree acts on a scope: current crossings end with a cause, levels close, banks empty, outputs follow (R275,
R285, R364, R370). -/
def State.killScope (s : State) (scope : Fin 40 → Bool) (cause : EndCause) : State :=
  (allChans.foldl (fun t c => if scope c then (t.endCrossing c cause).modX c XChan.closeLevel else t) s).killBanks.refresh

/-- A limit action ends without its cause (R209). -/
def State.dropLimit (s : State) : State := s.modUnit fun u => { u with limitAction := false }

/-- A unit in READY, UNDERWAY or STRANDED enters MOORED, and LATCHMOOR is set (R205). -/
def State.latchMoors (s : State) (cause : StateCause) : State :=
  if s.unit.st.armed then ((s.enter .moored cause).staEvt 3).refresh else s

/-- The KILL latch is set (R142, R205, R209, R364): the kill tree on every output, manifests stale, MOORED. -/
def State.latchKill (s : State) : State :=
  if s.unit.kill then s
  else (((((s.modUnit fun u => { u with kill := true }).dropLimit).killScope (fun _ => true) .kill).closeLevels).markStale).latchMoors .kill

/-- KILL (R142): K.04 at a port; forwarded in its direction of travel. -/
def execKill (port : Port) (s : State) : Result :=
  .next <|
    s.receive port (.char 0x104) fun s => (s.forwardKill port).latchKill

/-! ### Safety pairs -/

/-- The channels that read stop: 0 none, 1 A, 2 B, 3 both. -/
def State.stopping (s : State) (p : Fin 4) : Nat := b2n (s.readsStopA p) + 2 * b2n (s.readsStopB p)

/-- The word that names channels of a pair. -/
def channelWord (n : Nat) : String := if n = 1 then "A" else if n = 2 then "B" else "AB"

/-- An SFP.EVT flag is set. -/
def State.sfpEvt (s : State) (k : Nat) : State := { s with safety := { s.safety with evt := raise s.safety.evt k } }

/-- An effective stop of a pair: count, event, record and notice (R373), then what its function does (R363, R364), also where its latch is set
already (R205; DESIGN CHOICE, log 43). -/
def State.pairStops (s : State) (p : Fin 4) : State :=
  let w := s.stopping p
  let f := s.pairFunc p
  let s1 := (s.modPair p fun q =>
    { q with trips := satInc q.trips, first := BitVec.ofNat 2 w
             latch := q.latch || decide (f = .stop) || decide (f = .presence) }).sfpEvt p.val
  let s2 := (s1.record 0x281 p.val (w24 w)).notice [.word "SAFETY", .num p.val, .word "STOP", .word (channelWord w)]
  match f with
  | .generic => s2
  | .stop => (((s2.dropLimit.killScope (fun _ => true) .stop).closeLevels).markStale).latchMoors .stop
  | _ => s2.killScope (fun c => s2.inScope p c) .stop

/-- A pair's effective state returns to run (R364, R373). -/
def State.pairRuns (s : State) (p : Fin 4) : State :=
  (((s.sfpEvt (4 + p.val)).record 0x282 p.val 0).notice [.word "SAFETY", .num p.val, .word "RUN"]).refresh

/-- The discrepancy counter and the 10 ms of RUN10 follow the readings (R365, R367). -/
def State.followReadings (s : State) (p : Fin 4) : State :=
  let w := s.stopping p
  s.modPair p fun q =>
    let q1 :=
      if w = 1 ∨ w = 2 then
        (if q.onset.isSome then q
         else { q with onset := some s.clk, onsetTd := fld (s.reg (Reg.sfpCfg p)) 5 10, onsetA := decide (w = 1), checked := false })
      else { q with onset := none, checked := false }
    if w = 0 then (if q1.runSince.isSome then q1 else { q1 with runSince := some s.clk, run10 := false })
    else { q1 with runSince := none, run10 := false }

/-- A pair starts, or starts anew with its function in force (R369, R373). -/
def State.startPair (s : State) (p : Fin 4) : State :=
  let s1 := (s.modPair p fun q => { q with active := true }).followReadings p
  if s1.effStop p then s1.pairStops p else s1

/-- Whether a pair has what it runs on: its domain, and EN or a function that forces it (R368). -/
def State.pairMayRun (s : State) (p : Fin 4) : Bool :=
  s.domainOn (80 + p.val) && (bit (s.reg (Reg.sfpCfg p)) 0 || decide (s.pairFunc p ≠ .generic))

/-- Every pair that may run and does not starts; one that may not stops (R368, R369). -/
def State.settlePairs (s : State) : State :=
  allPairs.foldl
    (fun t p =>
      if t.pairMayRun p then (if (t.safety.pairs[p]).active then t else t.startPair p)
      else if (t.safety.pairs[p]).active then
        (t.modPair p fun q => { q with active := false, onset := none, checked := false, runSince := none, run10 := false }).refresh
      else t) s

/-- A pair's inputs take their filtered levels. -/
def Pair.setLevel (q : Pair) (ch : PairChannel) (level both : Bool) (clk : Nat) : Pair :=
  let q1 : Pair := match ch with
    | .a => { q with levelA := level, clkA := some clk }
    | .b => { q with levelB := level, clkB := some clk }
  if !both then q1
  else match ch with
    | .a => { q1 with levelB := !q.levelB, clkB := some clk }
    | .b => { q1 with levelA := !q.levelA, clkA := some clk }

/-- Whether the filter of a channel cannot have accepted a change so soon after the last one: 2 samples of 1 µs must read the new level (R360). -/
def Pair.bars (q : Pair) (ch : PairChannel) (clk : Nat) : Bool :=
  match (match ch with | .a => q.clkA | .b => q.clkB) with
  | some t => decide (clk < t + 2)
  | none => false

/-- The other channel of a pair. -/
def otherChannel : PairChannel → PairChannel
  | .a => .b
  | .b => .a

/-- The filtered level of a channel. -/
def Pair.level (q : Pair) : PairChannel → Bool
  | .a => q.levelA
  | .b => q.levelB

/-- Whether the deciding check of a running disagreement has come: Td + 1 ms after the onset (R365). -/
def State.discrepDue (s : State) (p : Fin 4) : Bool :=
  let q := s.safety.pairs[p]
  q.active && !q.checked && match q.onset with
    | some t => decide (t + 1000 * (q.onsetTd + 1) ≤ s.clk)
    | none => false

/-- The unit enters SAFE with cause DISCREP, and its current crossings end as under a STOP latch (R265, R275); in SAFE and
DRYDOCK only the cause is added (R366, Table 8.3); in a reset or a boot the state is the boot's to enter at its end (R94). -/
def State.discrepSafe (s : State) : State :=
  let add (t : State) : State := t.modUnit fun u => { u with safe := raise u.safe 2 }
  match s.unit.st with
  | .safe => add s
  | .drydock => add s
  | _ =>
    let s1 := add ((s.endAll .stop).closeLevels.markStale)
    if s1.phase = .running then (s1.enter .safe .discrep).refresh else s1.refresh

/-- The deciding check of a disagreement that has not ended: the pair has a discrepancy fault, and its function acts on its scope (R365, R366,
R373). -/
def State.declareDiscrep (s : State) (p : Fin 4) : State :=
  let q := s.safety.pairs[p]
  let w := if q.onsetA = s.readsStopA p then (if q.onsetA then 1 else 2) else 3
  let s1 := (s.modPair p fun q => { q with discrep := true, checked := true }).sfpEvt (8 + p.val)
  let s2 := (s1.record 0x283 p.val (w24 w)).notice
    [.word "SAFETY", .num p.val, .word "DISCREP", .word (channelWord w)]
  if s.pairFunc p = .generic then s2 else (s2.dropLimit.killScope (fun c => s2.inScope p c) .stop).discrepSafe

/-- DISCREPANCY_FAULT (R365, R366, R373). -/
def execDiscrepancyFault (p : Fin 4) (s : State) : Result :=
  .next <| if !s.coreUp || !s.discrepDue p then s else s.declareDiscrep p

/-- SAFETY_INPUT (R360 to R365): the filtered level of a channel changes; with `both`, the other channel's changes in the
same sample. A level that has not lasted 2 samples is no change. A deciding check that falls in the same microsecond has seen the readings as they were (Table 14.4). -/
def execSafetyInput (p : Fin 4) (ch : PairChannel) (level both : Bool) (s : State) : Result :=
  .next <|
    let both := both && !(s.safety.pairs[p]).bars (otherChannel ch) s.clk
    if (s.safety.pairs[p]).level ch == level || (s.safety.pairs[p]).bars ch s.clk then s
    else
      let s0 := if s.coreUp && s.discrepDue p then s.declareDiscrep p else s
      let s1 := s0.modPair p fun q => q.setLevel ch level both s.clk
      if !s.coreUp || !(s.safety.pairs[p]).active then s1
      else
        let s2 := s1.followReadings p
        if s2.effStop p && !s.effStop p then s2.pairStops p
        else if !s2.effStop p && s.effStop p then s2.pairRuns p
        else s2

/-- Whether both channels of a pair have read run for 10 ms (R367). -/
def State.run10Due (s : State) (p : Fin 4) : Bool :=
  let q := s.safety.pairs[p]
  q.active && !q.run10 && match q.runSince with
    | some t => decide (t + 10000 ≤ s.clk)
    | none => false

/-- RUN10 (R367). -/
def execRun10 (p : Fin 4) (s : State) : Result :=
  .next <| if s.run10Due p then s.modPair p fun q => { q with run10 := true } else s

end Sys2Proof.Machine
end

