-- ==== Sys2Proof/Machine/Apply.lean ====
section
/-! DEFINITION. What a tide does (chapters 3, 6, 7): power domains that switch off and on (R53 to R57), and the effect of each
ST path that acts when it is applied. -/
namespace Sys2Proof.Machine

open Sys2Proof

/-- The power block changes. -/
def State.modPower (s : State) (f : Power → Power) : State := { s with power := f s.power }

/-! ### Domains that switch off (R53, R56, R57) -/

/-- The odometer, the estimates and what SPEED gave are cleared: PD101 is switched off (R236); inputs and encoders are not
in it. -/
def Motion.clear (m : Motion) : Motion :=
  { speedSince := m.speedSince, fins := m.fins, finEvt := m.finEvt, encs := m.encs, encEvt := m.encEvt }

/-- The crossing store and engine are cleared: PD101 is switched off (R87). -/
def Engine.clear (e : Engine) : Engine := { vselChain := e.vselChain, vselConsole := e.vselConsole }

/-- A power domain that is switched off keeps nothing: what stands in it returns to its value after reset; counts that the
purser holds (R306), pin levels, and RW values are kept (R57, Table 3.8). -/
def State.clearDomain (s : State) (d : Nat) : State :=
  if h : d < 32 then (s.dequeue ⟨d, h⟩).releaseArbiter ⟨d, h⟩ |>.modSol ⟨d, h⟩ fun ch => { act := ch.act, coil := ch.coil }
  else if h : 32 ≤ d ∧ d < 40 then s.modBank ⟨d - 32, by omega⟩ fun _ => {}
  else if h : 48 ≤ d ∧ d < 56 then s.modValve ⟨d - 48, by omega⟩ fun y =>
    { limO := y.limO, limC := y.limC, act := y.act, ptgt := y.ptgt, bootLowA := y.bootLowA, bootLowB := y.bootLowB }
  else if h : 56 ≤ d ∧ d < 68 then s.modSlice ⟨d - 56, by omega⟩ fun w => { shadow := w.shadow }
  else if h : 68 ≤ d ∧ d < 72 then s.modEnc ⟨d - 68, by omega⟩ fun _ => {}
  else if h : 72 ≤ d ∧ d < 80 then s.modFin ⟨d - 72, by omega⟩ fun f => { level := f.level }
  else if h : 80 ≤ d ∧ d < 84 then s.modPair ⟨d - 80, by omega⟩ fun q => { levelA := q.levelA, levelB := q.levelB }
  else if h : 84 ≤ d ∧ d < 92 then s.modLoop ⟨d - 84, by omega⟩ fun x => { changes := x.turnOff.changes }
  else if h : 93 ≤ d ∧ d < 97 then s.modTrace ⟨d - 93, by omega⟩ fun _ => {}
  else match d with
  | 101 => { s with motion := s.motion.clear, engine := s.engine.clear }
  | 104 => s.modPort .bow fun p => { p with aligned := false }
  | 105 => s.modPort .stern fun p => { p with aligned := false }
  | 106 => { s with manil := { s.manil with conLine := [], conBad := false, conTx := [] } }
  | 107 => (if s.sol.boost.rdy then s.boostUnready else s).modBoost fun _ => {}
  | 108 => s.modPilot fun p => { p with ain := Vector.replicate 12 none, ainNext := 0 }
  | _ => s

/-- A domain is switched off; the calibrator's loss is an event (R313). -/
def State.domainOff (s : State) (d : Nat) : State :=
  let s1 := (s.modPower fun p => { p with on := drop p.on d }).clearDomain d
  if d = 111 then
    (s1.modPwm fun p => { p with calOk := false, evt := raise p.evt 12 }).record 0x202 63 (w24 s.pwm.taps)
  else s1

/-- The odometer is set to a preset: its pairs are cleared and every manifest is stale (R235). -/
def State.preset (s : State) (v : Word) : State :=
  let old := mmOf s.motion.pos
  ((s.modMotion fun m =>
    { m with pos := v.setWidth 40 <<< 16, turn := v.setWidth 40 <<< 16, rem := 0, pairs := [] }).markStale.odoEvt
    6).record 0x102 63 v (some old)

/-- A domain comes on with the configuration in force: the learned latencies start from CHcc.LAT (R270), a preset that waited for PD101
applies (R57, R235), the use of SPEED values begins (R243), an encoder reads at once. -/
def State.domainUp (s : State) (d : Nat) : State :=
  let s1 := s.modPower fun p => { p with on := raise p.on d }
  if d = 101 then
    let s2 := (allChans.foldl (fun t c => t.modX c fun x => { x with l8 := 8 * s.lat c }) s1).modMotion fun m =>
      (if s.speedInUse then m.useSpeed s.clk else m).takePreset
    (match s.motion.presetDue with
      | some v => s2.preset v
      | none => s2).followDir
  else if h : 68 ≤ d ∧ d < 72 then s1.modEnc ⟨d - 68, by omega⟩ fun e => { e with due := s.clk }
  else if h : d < 32 then s1.modSol ⟨d, h⟩ fun ch => { ch with idleClk := s.clk }
  else s1

/-- Every domain. -/
def allDomains : List Nat := List.range 114

/-- A valve with both enabled limits asserted faults at any time its domain is on (R327). -/
def State.checkBoth (s : State) : State :=
  allValves.foldl
    (fun t v =>
      if t.domainOn (48 + v.val) && (t.valveMode v).runs && t.limAsserted v .open_ && t.limAsserted v .closed
          && !(t.pwm.valves[v]).fault.getLsbD 1 then t.limitFault v 1
      else t) s

/-- After domains have switched: pairs start or stop, loops without their domain are OFF, limits are judged, outputs
follow (R93, R369, R334, R327). -/
def State.settleDomains (s : State) : State := s.settlePairs.settleLoops.checkBoth.refresh

/-- The enables in force decide which domains are on: those to go are isolated at once, those to come wait for their
groups (R53, R56). -/
def State.switchDomains (s : State) : State :=
  let off := allDomains.filter fun d => s.domainOn d && !s.domainWanted d
  let s1 := off.foldl State.domainOff s
  let on := allDomains.filter fun d => !s1.domainOn d && s1.domainWanted d
  (s1.modPower fun p =>
    { p with switching := on, groupDue := if p.switching.isEmpty then s.clk + 25 else p.groupDue }).settleDomains

/-- Every domain that is enabled comes on at once: a boot does not show its groups (Table 4.7). -/
def State.switchAllOn (s : State) : State :=
  let on := allDomains.filter fun d => !s.domainOn d && s.domainWanted d
  ((on.foldl State.domainUp s).modPower fun p => { p with switching := [] }).settleDomains

/-- DOMAIN_GROUP_ON (R56): the next 8 domains, in ascending number. -/
def execDomainGroupOn (s : State) : Result :=
  .next <|
    if !s.coreUp || s.power.switching.isEmpty || decide (s.clk < s.power.groupDue) then s
    else
      (((s.power.switching.take 8).foldl State.domainUp s).modPower fun p =>
        { p with switching := p.switching.drop 8, groupDue := s.clk + 25 }).settleDomains

/-! ### Paths that act when applied -/

/-- A pulse input whose DIV changes: the measurement restarts and PERIOD is rescaled (R223). -/
def FinState.rescale (f : FinState) (oldDiv newDiv : Nat) : FinState :=
  if f.period = 0xFFFFFF then { f with fresh := true }
  else
    let v := divNear (f.period.toNat * 2 ^ oldDiv) (2 ^ newDiv)
    if 0xFFFFFE < v then { f with period := 0xFFFFFF, stopped := true, fresh := true }
    else { f with period := w24 v, fresh := true }

/-- The inputs whose DIV a tide has changed; `o` is the unit before it. -/
def State.applyFins (s o : State) : State :=
  (List.finRange 8).foldl
    (fun t (n : Fin 8) =>
      let a := fld (o.reg (Reg.finCfg n)) 8 4
      let b := fld (t.reg (Reg.finCfg n)) 8 4
      if a = b then t else t.modFin n fun f => f.rescale a b) s

/-- The encoder ports whose role a tide has changed start anew in it (R229). -/
def State.applyEncs (s o : State) : State :=
  (List.finRange 4).foldl
    (fun t (p : Fin 4) =>
      if o.encRole p = t.encRole p then t
      else t.modEnc p fun e => { e with reading := false, valid := false, fault := false, fails := 0, due := s.clk }) s

/-- ODO.CFG and ODO.PRESET (R207, R235, R242, R243): a new source starts with no pairs; a preset sets the odometer, or waits for PD101; a
STRANDED unit takes no SPEED frames as its source. -/
def State.applyOdo (s o : State) (preset : Option Word) : State :=
  let s1 :=
    if fld (o.reg Reg.odoCfg) 0 4 = fld (s.reg Reg.odoCfg) 0 4 then s
    else s.modMotion fun m => { m with pairs := [], moving := false, vel := {}, acc := {}, turn := m.pos, rem := 0 }
  let s2 := if s1.speedInUse && !o.speedInUse then s1.modMotion fun m => m.useSpeed s.clk else s1
  let s3 := match preset with
    | some v => if s2.domainOn 101 then s2.preset v else s2.modMotion fun m => { m with presetDue := some v }
    | none => s2
  (if s.unit.st = .stranded ∧ s.motion.switched.isNone then s3.switchSource else s3).followDir

/-- CHcc.LAT: L8 is set at the tide that applies it (R270), and the fraction of a valve's position is taken into its unit (R330). -/
def State.applyLat (s o : State) (written : Nat → Bool) : State :=
  let s1 :=
    allChans.foldl (fun t (c : Fin 40) => if written (Reg.lat c) then t.modX c fun x => { x with l8 := 8 * s.lat c } else t) s
  allValves.foldl
    (fun t (v : Fin 8) =>
      if o.lat (chV v) = s.lat (chV v) then t
      else t.modValve v fun y => { y with posFrac := y.posFrac * s.lat (chV v) / o.lat (chV v) }) s1

/-- MVv.CFG: a change clears POSVALID (R330). -/
def State.applyValves (s o : State) : State :=
  allValves.foldl
    (fun t (v : Fin 8) =>
      if o.reg (Reg.mvCfg v) = t.reg (Reg.mvCfg v) then t else t.modValve v fun y => { y with posValid := false }) s

/-- AIN.CFG: a channel newly enabled has no code until its first conversion (R354). -/
def State.applyAin (s o : State) : State :=
  let ain := Vector.ofFn fun (n : Fin 12) =>
    if bit (s.reg Reg.ainCfg) n && !bit (o.reg Reg.ainCfg) n then none else s.pilot.ain[n]
  s.modPilot fun p => { p with ain := ain }

/-- FLT.CFG: an input that is now enabled and reads active trips (R320, R321). -/
def State.applyFlt (s o : State) : State :=
  ([0, 1, 2] : List (Fin 3)).foldl
    (fun t g =>
      if t.fltTrips g && !(bit (o.reg Reg.fltCfg) g.val && o.fltActive.getLsbD g.val) then t.trip g else t) s

/-- SFPp.CFG: a function with a scope forces EN and the pair's power domain (R54, R368). -/
def State.forcePairs (s : State) : State :=
  allPairs.foldl
    (fun t p =>
      if t.pairFunc p = .generic then t
      else
        (t.setReg (Reg.sfpCfg p) (raise (t.reg (Reg.sfpCfg p)) 0)).setReg (Reg.pwrEn 3)
          (raise (t.reg (Reg.pwrEn 3)) (8 + p.val))) s

/-- A running pair whose configuration a tide has changed: a new function starts it anew, a new scheme or scope acts at
once (R364, R369). -/
def State.applyPairs (s o : State) : State :=
  allPairs.foldl
    (fun t p =>
      if !(t.safety.pairs[p]).active || !t.pairMayRun p then t
      else if o.pairFunc p ≠ t.pairFunc p then t.startPair p
      else
        let t1 := t.followReadings p
        if t1.effStop p && !o.effStop p then t1.pairStops p
        else if !t1.effStop p && o.effStop p then t1.pairRuns p
        else if t1.pairDrives p && o.pairDrives p && allChans.any (fun c => t1.inScope p c && !o.inScope p c) then
          t1.killScope (fun c => t1.inScope p c && !o.inScope p c) .stop
        else t1) s

/-! ### CKOUT (R116, R117) -/

/-- Whether the clock of a domain runs: its power domain is on (Tables 1.4 and 5.3); CD00, CD08 and CD56 hang on none. -/
def State.clockOn (s : State) (d : Nat) : Bool :=
  if d = 0 ∨ d = 8 ∨ d = 56 then true
  else if d = 1 then s.domainOn 102
  else if d = 2 then s.domainOn 92
  else if d = 3 then s.domainOn 101
  else if d ≤ 5 then s.domainOn (100 + d)
  else if d = 6 then s.domainOn 104 || s.domainOn 105
  else if d = 7 then s.domainOn 106
  else if d = 9 then s.domainOn 103
  else if d ≤ 25 then s.domainOn (22 + d)
  else if d ≤ 53 then s.domainOn (30 + d)
  else if d = 54 then s.domainOn 107
  else if d = 55 then s.domainOn 111
  else if d = 57 then (List.range 4).any fun k => s.domainOn (93 + k)
  else if d = 58 then s.domainOn 112
  else false

/-- Nominal rates of the clock domains in kHz, as R116 takes them (Table 5.3). -/
def nominalKhz (d : Nat) : Nat :=
  if d = 0 ∨ d = 55 then 120000
  else if d = 4 ∨ d = 5 ∨ d = 6 then 25000
  else if d = 8 then 33
  else if d = 9 then 30000
  else if 10 ≤ d ∧ d ≤ 17 ∨ d = 54 then 40000
  else if 18 ≤ d ∧ d ≤ 25 then 24000
  else if 26 ≤ d ∧ d ≤ 37 then 240000
  else if 38 ≤ d ∧ d ≤ 41 then 48000
  else if 50 ≤ d ∧ d ≤ 53 then 1000
  else if d = 56 then 16000
  else if d = 58 then 10000
  else 60000

/-- How far CD08 goes in a microsecond, in 1/10^8 µs (R111, R391, R396): on the LXO its nominal rate, and nowhere where the LXO has stopped and is
not judged so; on IRC ÷ 488 at 16 MHz 57 633 more, and what the IRC is off by, a free value within 1 %, which it stays where the IRC fails too,
with or without an XO (DESIGN CHOICE, log 32); in ANCHORED no IRC runs. -/
def State.cd08Step (s : State) : Nat :=
  if s.clocks.lxoOk then (if s.clocks.lxoStopped then 0 else 100000000)
  else if s.phase = .anchored then 0
  else (100057633 + clampZ (-1000000) 1000000 (Config.ircOffset s.clk)).toNat

/-- How far CK goes in a microsecond, in 1/500 000 cycle: at the rate recognised; nowhere while the pairs are released in HOLDOVER; and where no rate
is recognised a free value up to 26 MHz, since CK may be missing or at no rate of Table 5.2 (R113; DESIGN CHOICE, log 100). -/
def State.ckStep (s : State) : Nat :=
  if s.clocks.rate ≠ 0 then 2400000000 / rateRatio10 s.clocks.rate.val
  else if s.chain.released then 0
  else Nat.min 13000000 (Config.unknownCk s.clk)

/-- How far the clock of a domain goes in the present microsecond, in 1/500 000 cycle: the rates of Table 5.3, CK as received, CD08 on what clocks it,
the modulated domains as their modulators stand (R111, R114, R115), and DCK at 10 MHz, as R116 takes it. -/
def State.clockStep (s : State) (d : Nat) : Nat :=
  if 4 ≤ d ∧ d ≤ 6 then s.ckStep
  else if d = 8 then 16384 * s.cd08Step / 100000000
  else if h : 10 ≤ d ∧ d ≤ 17 then (s.spread[(⟨d - 10, by omega⟩ : Fin 9)]).step
  else if d = 54 then (s.spread[(8 : Fin 9)]).step
  else 500 * nominalKhz d

/-- The divisor that a value of CLK.CKOUT names. -/
def ckoutDiv (w : Word) : Nat := fld w 6 12 + 1

/-- The period of the output that a value of CLK.CKOUT names, in 1/500 000 cycle of its source. -/
def ckoutPeriod (w : Word) : Nat := 500000 * ckoutDiv w

/-- How long it is high in each: half its cycles, rounded down, and of a single one the first half (R116). -/
def ckoutHighTime (w : Word) : Nat := if ckoutDiv w = 1 then 250000 else 500000 * (ckoutDiv w / 2)

/-- Whether the output of a value of CLK.CKOUT runs (R117). -/
def State.ckoutRuns (s : State) (w : Word) : Bool := bit w 18 && s.clockOn (fld w 0 6)

/-- How far the source has gone at a tick since the output before ended, in 1/500 000 cycle. -/
def State.ckoutCycles (s : State) (w : Word) (tick : Nat) : Nat :=
  s.ckout.cycles + s.clockStep (fld w 0 6) * (tick - Nat.max s.ckout.start (4800 * s.clk)) / 4800

/-- Whether the output of a value of CLK.CKOUT is in a high phase at a tick: it starts high once its source has gone as far as it waits for (R116,
R117). -/
def State.ckoutHigh (s : State) (w : Word) (tick : Nat) : Bool :=
  decide (s.ckout.start ≤ tick) && decide (s.ckout.wait ≤ s.ckoutCycles w tick)
    && decide ((s.ckoutCycles w tick - s.ckout.wait) % ckoutPeriod w < ckoutHighTime w)

/-- The tick at which the high phase of the present microsecond's start ends; where the source stands it ends at once. -/
def State.ckoutFall (s : State) (w : Word) : Nat :=
  let step := s.clockStep (fld w 0 6)
  let left := ckoutHighTime w - (s.ckout.cycles - s.ckout.wait) % ckoutPeriod w
  4800 * s.clk + if step = 0 then 0 else (4800 * left + step - 1) / step

/-- How far the new source goes in half the shorter of two outputs' periods, in 1/500 000 cycle (R117). -/
def State.ckoutHalf (s : State) (was w : Word) : Nat :=
  let step := s.clockStep (fld was 0 6)
  Nat.min (ckoutPeriod w) (if step = 0 then ckoutPeriod w else ckoutPeriod was * s.clockStep (fld w 0 6) / step) / 2

/-- A tide has changed CLK.CKOUT: the output completes its present high phase, stays low for 2 cycles of the new source, and for half the shorter of
the two periods, and then the new one starts (R117). -/
def State.applyCkout (s o : State) : State :=
  let was := o.reg Reg.ckout
  let w := s.reg Reg.ckout
  let t := 4800 * s.clk
  if w = was then s
  else
    let old : Option (Word × Nat) := match o.ckout.old with
      | some (v, e) => if t < e then some (v, e) else none
      | none => none
    let old := match old with
      | some x => some x
      | none => if o.ckoutRuns was && o.ckoutHigh was t then some (was, o.ckoutFall was) else none
    let from_ := match old with
      | some x => x.2
      | none => t
    { s with ckout := { start := from_, wait := Nat.max 1000000 (s.ckoutHalf was w), cycles := 0, old := old } }

/-- The source of a running output goes on through the microsecond that has passed; one that does not run starts anew (R117). -/
def State.tickCkout (s : State) : State :=
  let w := s.reg Reg.ckout
  let n := if s.ckoutRuns w && decide (s.phase = .running) then s.ckoutCycles w (4800 * (s.clk + 1)) else 0
  { s with ckout := { s.ckout with cycles := n } }

/-! ### VBAT and VHLD as the comparators see them (R59, R75, R76, R79) -/

/-- Whether VBAT lies below VBAT_LOW, to 2 % and 0.1 V, all in 0.1 V (R59, R400). -/
def belowLow (vbat low clk : Nat) : Bool :=
  bandActs .vbatLow clk (decide (100 * vbat + 100 < 98 * low)) (decide (100 * vbat < 102 * low + 100))

/-- Whether VBAT has come back, VBAT_LOW + 0.9 V to 1.1 V, all in 0.1 V (R59, R400). -/
def backAbove (vbat low clk : Nat) : Bool :=
  bandActs .vbatReturn clk (decide (low + 11 ≤ vbat)) (decide (low + 9 ≤ vbat))

/-- Whether VBAT lies above the trip of R36, 35.7 V to 36.0 V, in 0.1 V (R400). -/
def overTrip (vbat clk : Nat) : Bool := bandActs .vbatTrip clk (decide (360 < vbat)) (decide (357 ≤ vbat))

/-- VBAT is known, in 0.1 V: not above 36 V any more where it is not, and below VBAT_LOW since now where it has not been (R36, R59). -/
def Power.seeVbat (p : Power) (vbat low clk : Nat) : Power :=
  { p with
    vbat := vbat
    vbatOver := p.vbatOver && overTrip vbat clk
    lowSince := if p.vbatGood && belowLow vbat low clk then (match p.lowSince with | some t => some t | none => some clk) else none }

/-- VHLD is known, in 0.1 V: HLDOK is set from 90 % of PWR.HLD_V and cleared below 85 %, each to 2 % (R79, R400). -/
def Power.seeVhld (p : Power) (vhld hldV clk : Nat) : Power :=
  { p with
    vhld := vhld
    hldOk :=
      if bandActs .hldSet clk (decide (92 * hldV ≤ 100 * vhld)) (decide (88 * hldV ≤ 100 * vhld)) then true
      else p.hldOk && !bandActs .hldClear clk (decide (100 * vhld < 83 * hldV)) (decide (100 * vhld < 87 * hldV)) }

/-- Thresholds that a boot or a reset has moved are judged anew by the voltages as they are known (R59, R79). -/
def Power.judge (p : Power) (low hldV clk : Nat) : Power :=
  let q := (p.seeVbat p.vbat low clk).seeVhld p.vhld hldV clk
  { q with vbatGood := q.vbatGood || backAbove p.vbat low clk }

/-- VBAT at or above VBAT_LOW + 1.0 V sets VBATGOOD; during a handover that also sets HOREPLUG and changes nothing else; after
step 7 the count of 50 ms starts (R59, R75, R76). Charger and converter may run again (R78, R288). -/
def State.vbatRises (s : State) (vbat : Nat) : State :=
  let s1 := s.modPower fun p => p.seeVbat vbat (s.regN Reg.vbatLow) s.clk
  if s.power.vbatGood || !backAbove vbat (s.regN Reg.vbatLow) s.clk then s1
  else
    let s2 := s1.modPower fun p =>
      { p with vbatGood := true, returnAt := if p.returnArmed then some (s.clk + 50000) else p.returnAt }
    (if s.power.handover.isSome then s2.pwrEvt 4 else s2).refresh

/-- VHLD is known (R79). -/
def State.seeVhld (s : State) (vhld : Nat) : State := s.modPower fun p => p.seeVhld vhld (s.regN Reg.hldV) s.clk

/-- A threshold of a comparator that a tide has moved is judged anew by the voltage as it is known (R59, R79, R286); a new RST.WDT starts the
watchdog's count anew (R83). -/
def State.applyThresholds (s o : State) : State :=
  let s1 := if s.reg Reg.vbatLow = o.reg Reg.vbatLow then s else s.vbatRises s.power.vbat
  let s2 := if s.reg Reg.hldV = o.reg Reg.hldV then s1 else s1.seeVhld s.power.vhld
  let s3 := if fld (s.reg Reg.bstCfg) 0 10 = fld (o.reg Reg.bstCfg) 0 10 then s2 else s2.rejudgeVbst
  if s.reg Reg.wdt = o.reg Reg.wdt then s3 else { s3 with rst := { s3.rst with wdtSince := s.clk } }

/-- Writes take effect in one cycle (R56, R144, R187). One of CON.BAUD discards the line in assembly, also where the rate is the one in force (R198;
DESIGN CHOICE, log 63). -/
def State.applyWrites (s : State) (ws : List (RegAddr × Word)) : State :=
  let written (a : Nat) : Bool := ws.any fun w => decide (w.1.toNat = a)
  let preset := if written Reg.odoPreset then (ws.reverse.find? fun w => decide (w.1.toNat = Reg.odoPreset)).map (·.2) else none
  let s1 := (ws.foldl (fun t w => t.setReg w.1.toNat w.2) s).forcePairs
  let s2 := ((((s1.applyFins s).applyEncs s).applyOdo s preset).applyLat s written).applyAin s
  let s3 := ((((s2.applyValves s).applyPairs s).applyFlt s).applyCkout s).applyThresholds s
  let s4 := if written Reg.conBaud then { s3 with manil := { s3.manil with conLine := [], conBad := false } } else s3
  if s4.reg (Reg.pwrEn 0) ≠ s.reg (Reg.pwrEn 0) ∨ s4.reg (Reg.pwrEn 1) ≠ s.reg (Reg.pwrEn 1)
      ∨ s4.reg (Reg.pwrEn 2) ≠ s.reg (Reg.pwrEn 2) ∨ s4.reg (Reg.pwrEn 3) ≠ s.reg (Reg.pwrEn 3)
      ∨ s4.reg (Reg.pwrEn 4) ≠ s.reg (Reg.pwrEn 4) then s4.switchDomains
  else s4.settleDomains

/-! ### Tides -/

/-- Whether the oldest pending tide is due: at its target, or 2 ms after a late one's K.03 (R144 to R146). The target is kept as
48 bits of chain time and is due once that has been reached, also by a step over it (DESIGN CHOICE, log 91). -/
def State.tideDue (s : State) : Bool :=
  match s.manil.tides with
  | [] => false
  | t :: _ => match t.due with
    | .atTime x => s.reached x
    | .late due _ => decide (due ≤ s.clk)

/-- TIDE_APPLY (R144 to R146): the oldest pending tide applies the writes it took; a late one is reported. -/
def execTideApply (s : State) : Result :=
  .next <|
    if !s.coreUp || !s.tideDue then s
    else match s.manil.tides with
      | [] => s
      | t :: rest =>
        let s1 : State := { s with manil := { s.manil with tides := rest } }
        let s2 := match t.due with
          | .atTime _ => s1
          | .late _ target =>
            ((s1.chnEvt 9).record 0x084 63 target).notice [.word "TIDE", .word "LATE"]
        s2.applyWrites t.writes

/-- Every write staged in the unit, in the order it was staged. -/
def Manil.allStaged (m : Manil) : List (RegAddr × Word) := (m.tides.flatMap fun t => t.writes) ++ m.staged

/-- Nothing is staged any more; the pending tides stand with nothing to apply (R187, R188). -/
def State.unstage (s : State) : State :=
  let clear (t : PendingTide) : PendingTide := { t with writes := [] }
  { s with manil := { s.manil with staged := [], tides := s.manil.tides.map clear } }

end Sys2Proof.Machine
end

