-- ==== Sys2Proof/Machine/Crypto.lean ====
section
/-! DEFINITION. SHA-256 (FIPS 180-4) and HMAC-SHA-256 (FIPS 198-1), which the manual names and does not restate: the digests of
images (R98) and the responses of AUTH (R387). -/
namespace Sys2Proof.Machine

open Sys2Proof

/-- A word of the digest. -/
abbrev W32 := BitVec 32

/-- The largest number whose `e`-th power is at most `n`, settled bit by bit from bit `bits - 1` down on top of `r`. -/
def rootFrom (e n : Nat) : Nat → Nat → Nat
  | 0, r => r
  | bit + 1, r => rootFrom e n bit (if (r + 2 ^ bit) ^ e ≤ n then r + 2 ^ bit else r)

/-- The first 32 fraction bits of the `e`-th root of `p` (`p` below 512). -/
def rootWord (e p : Nat) : W32 := BitVec.ofNat 32 (rootFrom e (p * 2 ^ (32 * e)) 40 0)

/-- The first 64 primes. -/
def primes64 : List Nat :=
  (List.range 312).filter fun n => 2 ≤ n && (List.range n).all fun d => d < 2 || n % d != 0

/-- The round constants: fractions of the cube roots of the first 64 primes. -/
def roundWords : List W32 := primes64.map (rootWord 3)

/-- The initial hash value: fractions of the square roots of the first eight primes. -/
def startWords : List W32 := (primes64.take 8).map (rootWord 2)

/-- The exclusive or of a word turned right by each count. -/
def turns (x : W32) (ns : List Nat) : W32 := ns.foldl (fun acc n => acc ^^^ x.rotateRight n) 0

/-- The message schedule, newest word first: `n` more words, each from the words 16, 15, 7 and 2 before it. -/
def shaExpand : Nat → List W32 → List W32
  | 0, w => w
  | n + 1, w =>
    let back (k : Nat) : W32 := w.getD (k - 1) 0
    let early := turns (back 15) [7, 18] ^^^ (back 15 >>> 3)
    let late := turns (back 2) [17, 19] ^^^ (back 2 >>> 10)
    shaExpand n (((back 16 + back 7) + (early + late)) :: w)

/-- The eight working variables of a block. -/
structure Working where
  a : W32
  b : W32
  c : W32
  d : W32
  e : W32
  f : W32
  g : W32
  h : W32

/-- One round: the schedule's word and the round's constant come added. -/
def Working.round (v : Working) (kw : W32) : Working :=
  let pick := v.g ^^^ (v.e &&& (v.f ^^^ v.g))
  let most := (v.a &&& v.b) ||| (v.c &&& (v.a ||| v.b))
  let push := v.h + kw + pick + turns v.e [6, 11, 25]
  { a := push + most + turns v.a [2, 13, 22], b := v.a, c := v.b, d := v.c
    e := v.d + push, f := v.e, g := v.f, h := v.g }

/-- The working variables a hash value sets, and the words they stand for. -/
def Working.load (h : List W32) : Working :=
  { a := h.getD 0 0, b := h.getD 1 0, c := h.getD 2 0, d := h.getD 3 0
    e := h.getD 4 0, f := h.getD 5 0, g := h.getD 6 0, h := h.getD 7 0 }

/-- The eight words in order. -/
def Working.words (v : Working) : List W32 := [v.a, v.b, v.c, v.d, v.e, v.f, v.g, v.h]

/-- The hash value after one block of sixteen words. -/
def shaBlock (h : List W32) (block : List W32) : List W32 :=
  let keyed := roundWords.zipWith (· + ·) (shaExpand 48 block.reverse).reverse
  h.zipWith (· + ·) (keyed.foldl Working.round (Working.load h)).words

/-- Four bytes as a word, most significant first. -/
def word32 : List Byte → List W32
  | a :: b :: c :: d :: rest =>
    (a.setWidth 32 <<< 24 ||| b.setWidth 32 <<< 16 ||| c.setWidth 32 <<< 8 ||| d.setWidth 32) :: word32 rest
  | _ => []

/-- `n` blocks of sixteen words, hashed in order. -/
def shaBlocks : Nat → List W32 → List W32 → List W32
  | 0, _, h => h
  | n + 1, ws, h => shaBlocks n (ws.drop 16) (shaBlock h (ws.take 16))

/-- A number in `k` bytes, most significant first. -/
def beBytes : Nat → Nat → List Byte
  | 0, _ => []
  | k + 1, n => beBytes k (n / 256) ++ [BitVec.ofNat 8 n]

/-- The padding of a message of `n` bytes. -/
def shaPad (n : Nat) : List Byte :=
  (0x80 : Byte) :: List.replicate ((119 - n % 64) % 64) (0 : Byte) ++ beBytes 8 (8 * n)

/-- SHA-256 of a message. -/
def sha256 (m : List Byte) : List Byte :=
  let ws := word32 (m ++ shaPad m.length)
  (shaBlocks (ws.length / 16) ws startWords).flatMap fun w => beBytes 4 w.toNat

/-- HMAC-SHA-256 with a key of at most 64 bytes. -/
def hmac256 (key m : List Byte) : List Byte :=
  let k := key ++ List.replicate (64 - key.length) (0 : Byte)
  sha256 (k.map (· ^^^ 0x5C) ++ sha256 (k.map (· ^^^ 0x36) ++ m))

end Sys2Proof.Machine
end

