-- ==== Sys2Proof/Machine/Log.lean ====
section
/-! DEFINITION. The event recorder, authorisations and the calendar in time (chapter 15): commits, windows, expiries, and
the dates the calendar counts. -/
namespace Sys2Proof.Machine

open Sys2Proof

/-- The recorder changes. -/
def State.modRec (s : State) (f : Recorder → Recorder) : State := { s with recorder := f s.recorder }

/-- The calendar changes. -/
def State.modCal (s : State) (f : Calendar → Calendar) : State := { s with cal := f s.cal }

/-- The oldest record of the queue is committed, or a repeat is written to NVM (R376, R379). -/
def Recorder.commitOne (r : Recorder) : Recorder :=
  match r.queue with
  | x :: rest =>
    let all := r.nvm ++ [x]
    { r with nvm := all.drop (all.length - 4096), queue := rest, nvmNext := x.seq + 1 }
  | [] => { r with repeatDue := false }

/-- RECORD_COMMIT (R376, R379). -/
def execRecordCommit (s : State) : Result := .next (s.modRec Recorder.commitOne)

/-- RECORDS_LOST (R376): once the queue has room, one record and notice with the number dropped since the last. -/
def execRecordsLost (s : State) : Result :=
  .next <|
    if s.recorder.lost = 0 ∨ 32 ≤ s.recorder.queue.length then s
    else
      let k := s.recorder.lost
      ((s.modRec fun r => { r with lost := 0 }).record 0x2C6 63 (w24 k)).notice
        [.word "RECORDS", .word "LOST", .num k]

/-- Microseconds of a step of the operating time (R377). -/
def optimeStepUs : Nat := 56250000

/-- The operating time steps once (R377): it stays at its top, where OPTSAT is set and one record is written, once in the
life of the unit. -/
def State.stepOptime (s : State) : State :=
  let r := s.recorder
  if r.optime = 0xFFFFFF then s
  else
    let s1 := s.modRec fun r => { r with optime := r.optime + 1 }
    if r.optime = 0xFFFFFE then
      let s2 := s1.modRec fun r => { r with evt := raise r.evt 2 }
      if r.optSat then s2 else (s2.modRec fun r => { r with optSat := true }).record 0x2C3 63 0
    else s1

/-- OPTIME_STEP (R377): due every 56.25 s outside ANCHORED. -/
def execOptimeStep (s : State) : Result :=
  .next <|
    if s.recorder.optUs < optimeStepUs then s
    else (s.modRec fun r => { r with optUs := r.optUs - optimeStepUs }).stepOptime

/-- ACTUATION_COUNT_SAVE (R306): the actuation counters are written to NVM. -/
def State.saveCounts (s : State) : State :=
  { s with nvm := { s.nvm with solAct := s.sol.chans.map (·.act), mvAct := s.pwm.valves.map (·.act)
                               actSaved := s.recorder.optime.toNat } }

/-- ACTUATION_COUNT_SAVE (R306): due once in each hour, 64 steps, of operating time. -/
def execActuationCountSave (s : State) : Result :=
  .next <| if s.recorder.optime.toNat < s.nvm.actSaved + 64 then s else s.saveCounts

/-- RATE_WINDOW_END (R380): due 60 s after the window's start, in CD08 time. -/
def execRateWindowEnd (s : State) : Result := .next (s.modRec (·.roll s.cdUs))

/-- NONCE_EXPIRY (R386): 30 s after it was issued. -/
def execNonceExpiry (src : Source) (s : State) : Result :=
  .next <|
    match (s.owner.of src).nonce with
    | some (_, due) => if due ≤ s.clk then s.modAuth src fun a => { a with nonce := none } else s
    | none => s

/-- AUTH_EXPIRY (R388): OWN.TTL seconds after the grant. -/
def execAuthExpiry (src : Source) (s : State) : Result :=
  .next <|
    match (s.owner.of src).grant with
    | some due => if due ≤ s.clk then s.modAuth src fun a => { a with grant := none } else s
    | none => s

/-- LOCKOUT_END (R389): after 60 s; one that a reset interrupts is served again after the boot. -/
def execLockoutEnd (src : Source) (s : State) : Result :=
  .next <|
    match (s.owner.of src).lockout with
    | some due =>
      if s.phase = .running ∧ due ≤ s.clk then s.modAuth src fun a => { a with lockout := none } else s
    | none => s

/-! ### The calendar (R391 to R395) -/

/-- The last day and the last second the calendar counts. -/
def Calendar.atLast (c : Calendar) : Bool := decide (c.days.toNat = 146096) && decide (c.secs.toNat = 86399)

/-- The calendar goes on by `step` of CD08 time, in 1/10^8 µs and less than a second: seconds and days carry, and the last second, once elapsed,
holds (R391, R395). -/
def Calendar.tick (c : Calendar) (step : Nat) : Calendar :=
  let f := c.subFrac + step
  let sub := c.sub + f / 100000000
  let frac := f % 100000000
  if sub < 1000000 then { c with sub := sub, subFrac := frac }
  else if c.atLast then { c with sub := 1000000, subFrac := 0 }
  else if c.secs.toNat = 86399 then { c with sub := sub - 1000000, subFrac := frac, secs := 0, days := c.days + 1 }
  else { c with sub := sub - 1000000, subFrac := frac, secs := c.secs + 1 }

/-- Whether the calendar has reached its end and END is not yet set. -/
def Calendar.endDue (c : Calendar) : Bool := c.atLast && decide (1000000 ≤ c.sub) && !c.ended

/-- CAL_END (R395): END is set, recorded and sent; the calendar holds its last second. -/
def execCalEnd (s : State) : Result :=
  .next <|
    if !s.coreUp || !s.cal.endDue then s
    else ((s.modCal fun c => { c with ended := true }).record 0x2CA 63 0).notice [.word "CAL", .word "END"]

/-- A leap year of the Gregorian rules (R391). -/
def isLeap (y : Nat) : Bool := decide (y % 4 = 0) && (decide (y % 100 ≠ 0) || decide (y % 400 = 0))

/-- The days of a month. -/
def monthDays (y m : Nat) : Nat :=
  match m with
  | 2 => if isLeap y then 29 else 28
  | 4 => 30
  | 6 => 30
  | 9 => 30
  | 11 => 30
  | _ => 31

/-- The days of a year before a month. -/
def daysBefore (y m : Nat) : Nat := ((List.range (m - 1)).map fun k => monthDays y (k + 1)).sum

/-- The days of the years from 2000 to the one before `y`. -/
def yearDays (y : Nat) : Nat := ((List.range (y - 2000)).map fun k => if isLeap (2000 + k) then 366 else 365).sum

/-- Whether a date of the right shape exists and lies in 2000 to 2399 (R392). -/
def DateOk (d : DateArg) : Bool :=
  decide (2000 ≤ d.year) && decide (d.year ≤ 2399) && decide (1 ≤ d.month) && decide (d.month ≤ 12) && decide (1 ≤ d.day)
    && decide (d.day ≤ monthDays d.year d.month) && decide (d.hour ≤ 23) && decide (d.minute ≤ 59) && decide (d.second ≤ 59)

/-- The days since 2000-01-01 of a date. -/
def dateDays (d : DateArg) : Nat := yearDays d.year + daysBefore d.year d.month + (d.day - 1)

/-- The seconds of the day of a date. -/
def dateSecs (d : DateArg) : Nat := 3600 * d.hour + 60 * d.minute + d.second

/-- The month and day of a day of a year, from month `m` on. -/
def monthOf (y : Nat) : Nat → Nat → Nat → Nat × Nat
  | 0, m, d => (m, d + 1)
  | fuel + 1, m, d => if d < monthDays y m then (m, d + 1) else monthOf y fuel (m + 1) (d - monthDays y m)

/-- The year and the day of the year of a count of days, from year `y` on. -/
def yearOf : Nat → Nat → Nat → Nat × Nat
  | 0, y, d => (y, d)
  | fuel + 1, y, d =>
    let n := if isLeap y then 366 else 365
    if d < n then (y, d) else yearOf fuel (y + 1) (d - n)

/-- A number in `k` decimal digits. -/
def padded (k n : Nat) : String :=
  let t := toString n
  String.ofList (List.replicate (k - t.length) '0') ++ t

/-- The calendar in the shape of R175. -/
def Calendar.text (c : Calendar) : String :=
  let (y, d) := yearOf 400 2000 c.days.toNat
  let (m, dd) := monthOf y 12 1 d
  let s := c.secs.toNat
  padded 4 y ++ "-" ++ padded 2 m ++ "-" ++ padded 2 dd ++ "T" ++ padded 2 (s / 3600) ++ ":" ++ padded 2 (s / 60 % 60)
    ++ ":" ++ padded 2 (s % 60)

end Sys2Proof.Machine
end

