-- ==== Sys2Proof/Machine/Reset.lean ====
section
/-! DEFINITION. Resets (chapter 4): the sources, what each Reach clears, the choice of a pair of images, and the release. -/
namespace Sys2Proof.Machine

open Sys2Proof

/-- The reset controller changes. -/
def State.modRst (s : State) (f : ResetCtl → ResetCtl) : State := { s with rst := f s.rst }

/-! ### The pair of images a boot selects (R99, R100) -/

/-- The index of a slot. -/
def slotIndex : Slot → Fin 4
  | .pa => 0
  | .pb => 1
  | .la => 2
  | .lb => 3

/-- A slot of the unit. -/
def Boot.slot (b : Boot) (k : Slot) : ImageSlot := b.slots[slotIndex k]

/-- A slot is changed. -/
def Boot.setSlot (b : Boot) (k : Slot) (x : ImageSlot) : Boot := { b with slots := b.slots.set (slotIndex k).val x (slotIndex k).isLt }

/-- Two slots of one kind, the higher version first; of equal versions PA goes before PB and LA before LB (DESIGN CHOICE, log 79: R100
gives no order there). -/
def Boot.ordered (b : Boot) (x y : Slot) : List Slot :=
  if (b.slot y).version.toNat ≤ (b.slot x).version.toNat then [x, y] else [y, x]

/-- The four pairs by purser version, then by pilot version, highest first (R100). -/
def Boot.pairOrder (b : Boot) : List (Slot × Slot) :=
  (b.ordered .pa .pb).flatMap fun p => (b.ordered .la .lb).map fun l => (p, l)

/-- A pair is tested (R99): both VALID, and each lists the unit's stepping with the other's interface level. -/
def Boot.tested (b : Boot) (stepping : Word) (p l : Slot) : Bool :=
  let x := b.slot p
  let y := b.slot l
  decide (x.st = .valid) && decide (y.st = .valid)
    && x.tested.contains (stepping.setWidth 8, y.ifl) && y.tested.contains (stepping.setWidth 8, x.ifl)

/-- The accepted pair, where both slots are VALID and hold the digests accepted (R103). -/
def Boot.acceptedPair (b : Boot) : Option (Slot × Slot) :=
  match b.accepted with
  | some (p, l, dp, dl) =>
    if (b.slot p).st = .valid ∧ (b.slot l).st = .valid ∧ (b.slot p).digest = dp ∧ (b.slot l).digest = dl then some (p, l)
    else none
  | none => none

/-- What a boot chooses: a pair and whether it is an accepted one, or DRYDOCK with its reason (R100). -/
inductive BootChoice where
  | run (p l : Slot) (accepted : Bool)
  | dock (reason : Nat)
deriving DecidableEq, Repr

/-- The choice of a boot (R100, R96). -/
def State.bootChoice (s : State) : BootChoice :=
  let b := s.boot
  if !s.rst.strap.getLsbD 3 then .dock 3
  else if (b.slot .pa).st ≠ .valid ∧ (b.slot .pb).st ≠ .valid then .dock 2
  else match b.pairOrder.find? fun x => b.tested s.rst.stepping x.1 x.2 with
    | some (p, l) => .run p l false
    | none => match b.acceptedPair with
      | some (p, l) => .run p l true
      | none => .dock 1

/-- BOOT.STAT as a choice leaves it; the untested flag clears only with a tested pair (R103). -/
def Boot.choose (b : Boot) : BootChoice → Boot
  | .run p l acc =>
    { b with purser := if p = .pb then 1 else 0, pilotB := decide (l = .lb), runAccepted := acc, dockReason := 0, untested := acc }
  | .dock r => { b with purser := 2, pilotB := false, runAccepted := false, dockReason := r }

/-- A slot turns BAD. -/
def ImageSlot.spoil (x : ImageSlot) : ImageSlot := { x with st := .bad }

/-! ### What a reset clears (Table 4.3, R94, R105, R386, R388) -/

/-- The slot that is LOADING is EMPTY (R105). -/
def Boot.dropLoading (b : Boot) : Boot :=
  match b.openSlot with
  | some k => { b.setSlot k {} with openSlot := none }
  | none => b

/-- Grants, nonces and a partly written key end (R385, R386, R388); lockouts and counts of failures stay (R389). -/
def Owner.endSessions (o : Owner) : Owner :=
  { o with
    partialKey := Vector.replicate 6 none
    chain := { o.chain with nonce := none, grant := none }
    console := { o.console with nonce := none, grant := none } }

/-- The rate window ends without a SUPPRESSED record (R380). -/
def Recorder.endRates (r : Recorder) : Recorder := { r with rates := [], window := none }

/-- A channel's current crossings end silently and its level is closed; what its manifest holds is stale (R94, R253). -/
def XChan.quench (x : XChan) : XChan :=
  { x.closeLevel with cur := none, decided := [], manifest := x.manifest.map fun y => { y with stale := true } }

/-- The purser's queues, staged writes, line buffers and musters are lost (R94, R196, Table 4.3); the lock and the error
counters stay (R192). -/
def Manil.restart (m : Manil) : Manil :=
  { m with
    chainQ := [], conQ := [], staged := [], tides := [], musters := [], held := [], conLine := [], conBad := false
    conLastCr := false, snapChain := [], snapConsole := [] }

/-- Pending replies are lost (Table 4.3). -/
def Chain.dropReplies (c : Chain) : Chain :=
  { c with upQ := c.upQ.filter fun u => match u with
      | .reply _ _ => false
      | _ => true }

/-- A reset at Reach 1: the purser and the pilot restart; everything else in a powered domain is kept (Table 4.3, R22, R74,
R236, R253). Of the event and status registers PIL.EVT goes with the pilot, and STA.EVT, the stranded counts and the other events are kept (R13; DESIGN
CHOICE, log 24). -/
def State.clearReach1 (s : State) : State :=
  { s with
    chain := s.chain.dropReplies
    manil := s.manil.restart
    unit := { s.unit with st := .moored, limitAction := false }
    motion := s.motion.returnSource
    engine := { s.engine with chans := s.engine.chans.map XChan.quench }
    sol := { s.sol with chans := s.sol.chans.map SolChan.clearManual }
    pwm := { s.pwm with valves := s.pwm.valves.map Valve.clearManual }
    pilot := { s.pilot with loops := Vector.replicate 8 {}, traces := Vector.replicate 4 {}, evt := 0 }
    owner := s.owner.endSessions
    recorder := s.recorder.endRates
    boot := s.boot.dropLoading
    power := { s.power with handover := none, handed := false, anchorDue := none, vbatHigh := s.power.vbatOver }
    rst := { s.rst with soft := none, halted := false } }

/-- What a power-up finds of the recorder: the queue is lost, the cursor is kept (R376). -/
def Recorder.restart (r : Recorder) : Recorder :=
  { r.endRates with queue := [], repeatDue := false, last := none, lost := 0, eLost := 0, eAuth := 0, evt := 0 }

/-- The domains that stay on through a Reach 2 reset: PD109 and PD110 (Table 4.3). -/
def keptDomains : BitVec 114 := BitVec.ofNat 114 (2 ^ 109 + 2 ^ 110)

/-- The side the gangway takes as upstream when it starts (R163): the upstream port where CK arrives there, else the side it had, the bow
port at first. -/
def Chain.gangwaySide (c : Chain) : Port := if c.gangway || c.released then c.gangwayUp else c.upPort

/-- Every register returns to its value after reset and every switchable domain is off: the restart from a reset at Reach
2 or above and from ANCHORED (Table 4.3, R87, R93, R220, R306). Pin levels, what NVM and AON hold, and the hop
delays stay; VBAT and VHLD are judged by PWR.VBAT_LOW and PWR.HLD_V as reset leaves them (R59, R79). -/
def State.clearUnit (s : State) (on : BitVec 114) : State :=
  { s with
    regs := []
    chain := { serial := s.chain.serial, gangway := true, gangwayUp := s.chain.gangwaySide
               gangwayFrom := s.chain.gangwayFrom, hopB := s.chain.hopB, hopBValid := s.chain.hopBValid, hopS := s.chain.hopS, hopSValid := s.chain.hopSValid }
    manil := {}
    unit := {}
    motion := { fins := s.motion.fins.map fun f => { level := f.level } }
    engine := {}
    sol := { chans := Vector.ofFn fun c => { act := s.nvm.solAct[c], coil := (s.sol.chans[c]).coil } }
    pwm :=
      { valves := Vector.ofFn fun v =>
          { limO := (s.pwm.valves[v]).limO, limC := (s.pwm.valves[v]).limC, act := s.nvm.mvAct[v]
            bootLowA := (s.pwm.valves[v]).bootLowA, bootLowB := (s.pwm.valves[v]).bootLowB }
        fltPin := s.pwm.fltPin }
    pilot := {}
    safety := { pairs := s.safety.pairs.map fun q => { levelA := q.levelA, levelB := q.levelB } }
    owner := s.owner.endSessions
    recorder := s.recorder.restart
    boot := s.boot.dropLoading
    spread := Vector.replicate 9 {}
    ckout := {}
    power :=
      ({ on := on, vbatGood := s.power.vbatGood, hldOk := s.power.hldOk, vbat := s.power.vbat, vhld := s.power.vhld
         evt := s.power.evt, wake := s.power.wake, vgdLow := s.power.vgdLow, downUntil := s.power.downUntil
         vbatOver := s.power.vbatOver, vbatHigh := s.power.vbatOver, lowSince := s.power.lowSince } : Power).judge 90 120 s.clk
    rst := { s.rst with soft := none, halted := false } }

/-- The clocks after a reset at Reach 2: chain time is UNSET, the oscillators and the CLPLL run on (Tables 4.3, 5.5). -/
def Clocks.unset (c : Clocks) : Clocks :=
  { ref := c.ref, lock := c.lock, xoStable := c.xoStable, ircOk := c.ircOk, lxoOk := c.lxoOk, safetyOnXo := c.safetyOnXo
    rate := c.rate, lastRate := c.lastRate, lxoStopped := c.lxoStopped }

/-- The clocks after a stop of the IRC, the XO and the CLPLL: they start anew and are judged anew (Table 3.5). -/
def Clocks.restart (c : Clocks) : Clocks := { lxoOk := c.lxoOk, lxoStopped := c.lxoStopped }

/-- A reset at Reach 2 (Table 4.3, Table 5.5): chain time and hop delays are cleared too. -/
def State.clearReach2 (s : State) : State :=
  let s1 := s.clearUnit (s.power.on &&& keptDomains)
  { s1 with
    time := 0
    clocks := s.clocks.unset
    chain := { serial := s.chain.serial, gangway := true, gangwayUp := s.chain.gangwaySide, gangwayFrom := s.chain.gangwayFrom } }

/-- A reset at Reach 3: the core regulators, PD109 and PD110 go off too; CD08 and CD56 keep what they know of the IRC (R87, R110). -/
def State.clearReach3 (s : State) : State :=
  let s1 := s.clearReach2
  { s1 with power := { s1.power with on := 0 }
            clocks := { s.clocks.restart with ircOk := s.clocks.ircOk, safetyOnXo := s.clocks.safetyOnXo } }

/-- A reset at Reach 4: the retention registers and PWR.EVT are cleared, the cursor reloaded from NVM, and the count towards the next step
of the operating time starts anew; the LXO is kept (R87, R376, R377). -/
def State.clearReach4 (s : State) : State :=
  let s1 := s.clearReach3
  { s1 with
    power := { s1.power with evt := 0 }
    clocks := s.clocks.restart
    recorder := { s1.recorder with next := s1.recorder.nvmNext, optUs := 0, optFrac := 0 } }

/-- What a Reach clears. -/
def State.clearReach (s : State) (level : Nat) : State :=
  match level with
  | 4 => s.clearReach4
  | 3 => s.clearReach3
  | 2 => s.clearReach2
  | _ => s.clearReach1

/-! ### Assertion (R81, R88, R90, R101) -/

/-- The Reach of a cause in the table in force; POWER ON and BROWN VDD are fixed at 4 (R88). -/
def State.reachOf (s : State) (cause : Nat) : Nat :=
  if cause ≤ 2 then 4 else fld (s.rst.table.setWidth 24) (2 * (cause - 1)) 2 + 1

/-- Whether a source that asserts now is taken (R90): while a reset is asserted or releases only with a higher Reach, or in
the same CD08 cycle with the same Reach and a lower code. -/
def State.takesReset (s : State) (cause level : Nat) : Bool :=
  let higher := decide (s.rst.level < level)
  match s.phase with
  | .inReset => higher ||
      (decide (cd08Cycle s.rst.assertedAt = cd08Cycle s.cdUs) && decide (level = s.rst.level) && decide (cause < s.rst.cause.toNat))
  | .powerUp => !s.rst.fromReset || higher
  | _ => true

/-- The power-up step a reset restarts at: 0 is the firmware boot (Table 4.3). What has not been powered starts at 1. -/
def State.restartStep (s : State) (level : Nat) : Nat :=
  let unpowered := match s.phase with
    | .anchored => true
    | .powerUp => true
    | .inReset => decide (s.rst.fromStep = 1)
    | _ => false
  if unpowered || decide (3 ≤ level) then 1 else if level = 2 || decide (s.phase = .inReset ∧ s.rst.fromStep = 3) then 3 else 0

/-- What was not powered starts with the gangway, as a power-up does (R61, R63, R163). -/
def Chain.startGangway (c : Chain) (unpowered : Bool) : Chain :=
  if unpowered then { c with gangway := true, gangwayUp := c.gangwaySide } else c

/-- The reset acts: it clears what its Reach covers, and the keeper takes every output (R81, R87). Its source is active for `lowUs`, and
holds the assertion for as long, as any other does that is still active (R81, R82); the 100 µs at least are held for an nRST low too (DEDUCED, log
25). The watchdog starts its count anew (DEDUCED, log 25). -/
def State.resetAt (s : State) (cause level lowUs : Nat) : State :=
  let step := s.restartStep level
  let s1 := (s.clearReach level).modRst fun r =>
    { r with cause := BitVec.ofNat 4 cause, level := level, fromStep := step, assertedAt := s.cdUs, wdtSince := s.clk
             activeUntil := Nat.max r.activeUntil (s.clk + lowUs)
             holdUntil := Nat.max (s.clk + 100) (Nat.max r.activeUntil (s.clk + lowUs)) }
  ({ s1 with phase := .inReset, chain := s1.chain.startGangway (decide (step = 1)) } : State).refresh

/-- A boot that a WATCHDOG, LOCKUP PURSER or LOCKUP PILOT reset ended before its end (R101). -/
def State.failedBoot (s : State) (cause : Nat) : Bool :=
  decide (s.phase = .boot) && (decide (cause = 6) || decide (cause = 10) || decide (cause = 11))

/-- A failed boot is counted; the third in a row marks the slots of the pair BAD and is recorded (R101). `choice` is the pair
the boot had selected; the UNTESTED flag stays, which only a boot that ends clears, with its record (R103). -/
def State.countFailed (s : State) (choice : BootChoice) : State :=
  match choice with
  | .dock _ => s
  | .run p l _ =>
    if s.boot.fails < 2 then { s with boot := { s.boot with fails := s.boot.fails + 1 } }
    else
      let b := { s.boot.choose choice with untested := s.boot.untested }
      let b1 := (b.setSlot p (b.slot p).spoil).setSlot l (b.slot l).spoil
      let s1 : State := { s with boot := { b1 with fails := 0 } }
      s1.record 0x00A 63 (s1.readRst 0x10)

/-- A source that is absorbed while a reset is asserted holds the assertion for as long as it is active (R81, R82, R90). -/
def ResetCtl.stayActive (r : ResetCtl) (until_ : Nat) (asserted : Bool) : ResetCtl :=
  { r with activeUntil := Nat.max r.activeUntil until_
           holdUntil := if asserted then Nat.max r.holdUntil until_ else r.holdUntil }

/-- The source that is taken where one asserts: a RESET line whose time has come in the same CD08 cycle goes before one of a lower Reach, or of
its own Reach and a higher code (R90). -/
def State.strongest (s : State) (cause level : Nat) : Nat × Nat :=
  match s.rst.soft with
  | some x => match x.due with
    | some due =>
      if due ≤ s.clk && (decide (level < x.reach) || (decide (level = x.reach) && decide (7 < cause))) then (7, x.reach) else (cause, level)
    | none => (cause, level)
  | none => (cause, level)

/-- A source asserts, active for `lowUs` (R80, R81, R90). -/
def State.assertReset (s : State) (cause level lowUs : Nat) : State :=
  let (code, reach) := s.strongest cause level
  if !s.takesReset code reach then s.modRst fun r => r.stayActive (s.clk + lowUs) (decide (s.phase = .inReset))
  else
    let s1 := s.resetAt code reach lowUs
    if s.failedBoot cause then s1.countFailed s.bootChoice else s1

/-- VDD or VIO is absent for `lowUs`: the gangway forwards nothing until it is back (R163, Table 2.8). -/
def State.railAbsent (s : State) (lowUs : Nat) : State :=
  { s with chain := { s.chain with gangwayFrom := Nat.max s.chain.gangwayFrom (s.clk + lowUs) } }

/-- POWER_ON (R38, R80 to R82, R87, R394): VDD rises from below 0.8 V; whatever ran before is lost, the calendar and the LXO's judgement with it,
and a source that is still active holds the assertion. -/
def execPowerOn (s : State) : Result := .next (({ s with cal := {}, clocks := {} } : State).resetAt 1 4 0)

/-- The records in NVM end before a sequence number. -/
def Recorder.cutAt (r : Recorder) (mark : Word) : Recorder :=
  { r with nvm := r.nvm.takeWhile fun x => decide (x.seq ≠ mark)
           nvmNext := if r.nvm.any fun x => decide (x.seq = mark) then mark else r.nvmNext }

/-- A brown-out of VDD within a handover leaves the record of its step 1 as the last one written (R77; DEDUCED, log 60). -/
def State.cutHandover (s : State) : State :=
  match s.power.handover with
  | some h => { s with recorder := s.recorder.cutAt h.mark }
  | none => s

/-- BROWN_VDD (R37, R38, R77, R80, R81): the core is held in reset until VDD is good. -/
def execBrownVdd (s : State) : Result :=
  let low := Config.railLowFor 2 s.clk
  .next ((s.cutHandover.assertReset 2 (s.reachOf 2) low).railAbsent low)

/-- BROWN_VIO (R80, R81, R163). -/
def execBrownVio (s : State) : Result :=
  let low := Config.railLowFor 3 s.clk
  .next ((s.assertReset 3 (s.reachOf 3) low).railAbsent low)

/-- BROWN_VDDA (R80, R81). -/
def execBrownVdda (s : State) : Result := .next (s.assertReset 4 (s.reachOf 4) (Config.railLowFor 4 s.clk))

/-- PIN (R82): nRST low for `lowNs`; below 1 µs it is ignored, from 5 µs it always resets and holds the assertion. -/
def execPin (lowNs : Nat) (s : State) : Result :=
  .next <|
    if lowNs < 1000 then s
    else if lowNs < 5000 ∧ !Config.pinResets s.clk lowNs then s
    else s.assertReset 5 (s.reachOf 5) (lowNs / 1000)

/-- Whether the watchdog can have run out: RST.WDT, to 1 %, has passed since its count last started anew (R83). Services only put that
off. -/
def State.watchdogOver (s : State) : Bool := decide (s.rst.wdtSince + 990 * s.regN Reg.wdt ≤ s.clk)

/-- WATCHDOG (R83): the firmware has not serviced the watchdog; it stops while the purser is halted and in ANCHORED. -/
def execWatchdog (s : State) : Result :=
  .next <|
    if s.rst.halted || decide (s.phase = .anchored) || !s.watchdogOver then s else s.assertReset 6 (s.reachOf 6) 0

/-- SOFTWARE (R85, R86): the reply of a RESET line has left, and its delay is over. -/
def execSoftware (s : State) : Result :=
  .next <|
    match s.rst.soft with
    | some x => match x.due with
      | some due => if due ≤ s.clk then s.assertReset 7 x.reach 0 else s
      | none => s
    | none => s

/-- Whether the debug port is powered and the unit in a state in which it is served (R97). -/
def State.debugServed (s : State) : Bool :=
  decide (s.phase = .running) && s.domainOn 112
    && (decide (s.unit.st = .moored) || decide (s.unit.st = .drydock) || decide (s.unit.st = .safe))

/-- DEBUG (R97): a reset request through the debug port. -/
def execDebug (s : State) : Result := .next <| if s.debugServed then s.assertReset 8 (s.reachOf 8) 0 else s

/-- DEBUG_HALT (R97): the purser is halted; KILL, the kill tree and the keeper work as usual. -/
def execDebugHalt (s : State) : Result := .next <| if s.debugServed then s.modRst fun r => { r with halted := true } else s

/-- CLOCK_FAIL (R80, R90, R110): the IRC is judged failed while the XO is not stable; a reset at Reach 2 that is asserted or
releases then restarts at the higher Reach. -/
def State.clockFailed (s : State) : Bool := s.checkerRuns && !s.clocks.ircOk && !s.clocks.xoStable

/-- CLOCK_FAIL (R80). -/
def execClockFail (s : State) : Result := .next <| if s.clockFailed then s.assertReset 9 (s.reachOf 9) 0 else s

/-- LOCKUP_PURSER (R84). -/
def execLockupPurser (s : State) : Result := .next <| if s.coreUp then s.assertReset 10 (s.reachOf 10) 0 else s

/-- LOCKUP_PILOT (R84): two missed write phases in a row, or an exception of the pilot core. -/
def execLockupPilot (s : State) : Result := .next <| if s.coreUp then s.assertReset 11 (s.reachOf 11) 0 else s

/-! ### Release (R91, R92) -/

/-- Whether the assertion may end: 100 µs and the length of an nRST low have passed, and no failed clock holds it, whatever its source was (R81,
R82; DEDUCED, log 75). -/
def State.releaseDue (s : State) : Bool := decide (s.phase = .inReset) && decide (s.rst.holdUntil ≤ s.clk) && !s.clockFailed

/-- RESET_RELEASE (R83, R89, R91, R92, R94, R380): the cause is remembered, a fused reach table taken in, the watchdog starts anew, and the
restart runs. A reset at Reach 1 that ended the boot after a power-up leaves that boot's configuration still to be loaded (R94; DEDUCED, log
80). -/
def execResetRelease (s : State) : Result :=
  .next <|
    if !s.releaseDue then s
    else
      let s1 := s.modRst fun r =>
        { r with lastCause := w24 (r.cause.toNat + 16 * r.level), table := r.fused.getD r.table
                 fromReset := true, coldBoot := r.coldBoot || decide (r.fromStep ≠ 0), wdtSince := s.clk }
      if s.rst.fromStep = 0 then { s1 with phase := .boot, recorder := { s1.recorder with window := some s1.cdUs } }
      else { s1 with phase := .powerUp, power := { s1.power with wake := .reset } }

end Sys2Proof.Machine
end

