-- ==== Sys2Proof/Machine/Boot.lean ====
section
/-! DEFINITION. Power-up, firmware boot, power-down and wakes (chapters 3 and 4). -/
namespace Sys2Proof.Machine

open Sys2Proof

/-! ### Power-up (Table 3.5) -/

/-- PWR.EN4 as the strap leaves bit 16, PD112: 1 with the debug port open, 0 with it locked (R97). -/
def State.strapDebug (s : State) : State :=
  s.setReg (Reg.pwrEn 4) (put (s.reg (Reg.pwrEn 4)) 16 (!s.rst.strap.getLsbD 2))

/-- CON.BAUD takes the rate of the strap: 115 200 or 9600 baud (R96, R198). -/
def State.strapBaud (s : State) : State := s.setReg Reg.conBaud (if s.rst.strap.getLsbD 1 then 4 else 0)

/-- Step 3: the power-cycle count increments after POWER ON and BROWN VDD (R377). -/
def State.countPower (s : State) : State :=
  let r := s.recorder
  if !s.rst.fromReset || decide (2 < s.rst.cause.toNat) || decide (r.pcycle = 0xFFFFFF) then s
  else
    let s1 := s.modRec fun x => { x with pcycle := x.pcycle + 1 }
    if r.pcycle = 0xFFFFFE then
      let s2 := s1.modRec fun x => { x with evt := raise x.evt 3 }
      if r.pcSat then s2 else (s2.modRec fun x => { x with pcSat := true }).record 0x2C4 63 0
    else s1

/-- Whether a wake by CK finds no CK edge for 100 µs when step 5 completes (R64, R65). -/
def State.spuriousWake (s : State) (ckEdgeSeen : Bool) : Bool :=
  !s.rst.fromReset && !ckEdgeSeen && !s.power.pinToo
    && (decide (s.power.wake = .bow) || decide (s.power.wake = .stern))

/-- The power-up is reversed within 4 ms, and the unit is back in ANCHORED (R64, R65). A wake within those 4 ms is taken as one within a
power-down: it sets WAKEDOWN and waits for their end; and the wake sources armed are those of the power-down before (DESIGN CHOICE, log
81). -/
def State.reverseWake (s : State) : State :=
  let s1 := ((s.pwrEvt 0).record 0x002 63 0).modRec Recorder.commitAll
  let s2 := s1.clearUnit 0
  { s2 with
    phase := .anchored
    clocks := s2.clocks.restart
    chain := { s2.chain with gangway := false }
    power := { s2.power with wake := s.power.wake, downUntil := s.clk + 4000, wakeArmed := s.power.wakeArmed } }

/-- Step 6: UP is set, the POWER UP record written with the wake source, and the firmware boot begins (R66, R380). -/
def State.readyForBoot (s : State) : State :=
  let s1 := s.record 0x001 63 (w24 (s.power.wake.code + 4 * b2n s.power.wakeDown))
  { s1 with
    phase := .boot
    power := { s1.power with up := true, wakeDown := false, pinToo := false }
    rst := { s1.rst with wdtSince := s.clk }
    chain := { s1.chain with gangway := false }
    recorder := { s1.recorder with window := some s1.cdUs } }

/-- POWER_UP (Table 3.5): the six steps, once a power-down is over and no source of a reset is active, a brown-out of VDD among them (R38,
R66, R81). The strap is read after a reset at Reach 3 or 4 (R95). -/
def execPowerUp (strap : Fin 16) (failedCheck : Option Word) (ckEdgeSeen : Bool) (s : State) : Result :=
  .next <|
    if s.phase ≠ .powerUp ∨ s.clk < s.power.downUntil ∨ s.clk < s.rst.activeUntil then s
    else
      let s1 := if s.rst.fromReset && decide (3 ≤ s.rst.level) then s.modRst fun r => { r with strap := BitVec.ofNat 4 strap.val }
        else s
      let s2 := s1.countPower
      let s3 : State := { s2 with boot := { s2.boot with selfTest := failedCheck } }
      let s4 := s3.strapDebug.strapBaud.switchAllOn
      if s4.spuriousWake ckEdgeSeen then s4.reverseWake else s4.readyForBoot

/-! ### Firmware boot (Table 4.7) -/

/-- Step 2: the pair is chosen; a tested pair that ends the UNTESTED flag is recorded (R100, R103). -/
def State.choosePair (s : State) : State :=
  let choice := s.bootChoice
  let s1 : State := { s with boot := s.boot.choose choice }
  match choice with
  | .run _ _ false => if s.boot.untested then s1.record 0x00C 63 (s1.readRst 0x10) else s1
  | _ => s1

/-- Step 4 after a power-up: the SAVEd configuration comes into force, but for CON.BAUD and PD112; a domain of the boot set that it does not
enable goes off, and every enabled domain comes on (R53, R94, R97, R190, R198, R369). A reload presets nothing (R235), and moves the
thresholds that VBAT and VHLD are judged by (R59, R79). -/
def State.loadSaved (s : State) : State :=
  let saved := s.nvm.saved.filter fun w => decide (w.1.toNat ≠ Reg.conBaud)
  let s1 := saved.foldl (fun t w => t.setReg w.1.toNat w.2) s
  let s2 := s1.strapDebug.forcePairs
  let s3 : State := { s2 with engine := { s2.engine with chans := Vector.ofFn fun c =>
      { s2.engine.chans[c] with l8 := 8 * s2.lat c } } }
  let s4 := ((allDomains.filter fun d => s3.domainOn d && !s3.domainWanted d).foldl State.domainOff s3).switchAllOn.followDir
  s4.modPower fun p => p.judge (s4.regN Reg.vbatLow) (s4.regN Reg.hldV) s.clk

/-- A fault input that is enabled and active trips as the configuration comes into force (R321). -/
def State.tripActive (s : State) : State :=
  ([0, 1, 2] : List (Fin 3)).foldl
    (fun t g =>
      if t.fltTrips g then t.trip g else t) s

/-- The names of the reset sources (Table 4.2). -/
def causeWords : Nat → List Tok
  | 1 => [.word "POWER", .word "ON"]
  | 2 => [.word "BROWN", .word "VDD"]
  | 3 => [.word "BROWN", .word "VIO"]
  | 4 => [.word "BROWN", .word "VDDA"]
  | 5 => [.word "PIN"]
  | 6 => [.word "WATCHDOG"]
  | 7 => [.word "SOFTWARE"]
  | 8 => [.word "DEBUG"]
  | 9 => [.word "CLOCK", .word "FAIL"]
  | 10 => [.word "LOCKUP", .word "PURSER"]
  | _ => [.word "LOCKUP", .word "PILOT"]

/-- The RESET record and notice at the end of a boot (R91); a boot after a wake follows no reset. -/
def State.tellReset (s : State) (cold : Bool) : State :=
  if cold && !s.rst.fromReset then s
  else
    let level := s.rst.lastCause.toNat / 16
    (s.record 0x004 63 s.rst.lastCause).notice
      ([.word "RESET"] ++ causeWords (s.rst.lastCause.toNat % 16) ++ [.num level])

/-- The state a boot ends in (R94, R100, Table 8.3). Where a cause of SAFE that a reset at Reach 1 kept brings SAFE, the cause told is DISCREP where
that is among them, else BOOT (DESIGN CHOICE, log 102). -/
def State.bootState (s : State) : UnitState × StateCause :=
  if s.boot.selfTest.isSome then (.safe, .selftest)
  else if s.boot.purser = 2 then (.drydock, .boot)
  else if s.unit.safe = 0 then (.moored, .boot)
  else (.safe, if s.unit.safe.getLsbD 2 then .discrep else .boot)

/-- The state is entered; a failed self-test of this power-up is recorded, its SAFE cause set, and SAFE marks and closes (R94, R206,
R275). -/
def State.enterBooted (s : State) (cold : Bool) : State :=
  let (st, cause) := s.bootState
  let s1 := match s.boot.selfTest with
    | some n =>
      let t : State := { s with unit := { s.unit with safe := raise s.unit.safe 0 } }
      if cold then t.record 0x005 63 n else t
    | none => s
  (if st = .safe then s1.markStale.closeLevels else s1).enter st cause

/-- An interrupted lockout is served again in full (R389). -/
def AuthState.serveAgain (a : AuthState) (due : Nat) : AuthState := { a with lockout := a.lockout.map fun _ => due }

/-- Step 5 and what belongs to the end of a boot (R91, R155, R165, R243, R379, R389). -/
def State.endBoot (s : State) : State :=
  let due := s.clk + 60000000
  let s1 : State :=
    { s with
      phase := .running
      boot := { s.boot with fails := 0 }
      rst := { s.rst with coldBoot := false }
      owner := if s.rst.coldBoot then
          { s.owner with chain := s.owner.chain.serveAgain due, console := s.owner.console.serveAgain due }
        else s.owner
      motion := if s.rst.coldBoot then s.motion.useSpeed s.clk else s.motion
      chain := { s.chain with freeEnd := s.chain.freeEnd || !s.chain.dnLink } }
  let s2 := (s1.tellReset s.rst.coldBoot).enterBooted s.rst.coldBoot
  let s3 := if s2.chain.addr = 0 then s2.notice [.word "ATTACH", .serial s2.chain.serial] else s2
  ((s3.modRec fun r => { r with last := none }).settleDomains).tripActive

/-- FIRMWARE_BOOT (R100, Table 4.7). -/
def execFirmwareBoot (s : State) : Result :=
  .next <|
    if s.phase ≠ .boot then s
    else
      let s1 := s.choosePair
      (if s.rst.coldBoot then s1.loadSaved else s1).endBoot

/-! ### Power-down and wakes (Table 3.6, R60 to R66) -/

/-- Whether PWR.ANCHOR_DLY has run out (R67). -/
def State.anchorOver (s : State) : Bool :=
  decide (s.phase = .running) && match s.power.anchorDue with
    | some due => decide (due ≤ s.clk)
    | none => false

/-- POWER_DOWN (Table 3.6, R60, R66, R105, R121, R306, R376, R388): the ANCHOR record is committed, domains, clocks and ports
go off; PWR.WAKE arms the wake sources. -/
def execPowerDown (s : State) : Result :=
  .next <|
    if !s.anchorOver then s
    else
      let s1 := ((s.record 0x003 63 0).modRec Recorder.commitAll).saveCounts
      let s2 := s1.clearUnit 0
      ({ s2 with
        phase := .anchored
        clocks := s2.clocks.restart
        chain := { s2.chain with gangway := false }
        power := { s2.power with downUntil := s.clk + 4000, wakeArmed := (s.reg Reg.pwrWake).setWidth 3 } } : State).refresh

/-- A qualified wake (R61, R63, R66, R83): one that comes while the power-down runs sets WAKEDOWN and waits for its end; the watchdog, which stands
in ANCHORED, starts anew. The gangway forwards at
once after a CK wake, and from the end of power-up step 1, 1 ms, after a WAKE pin wake. -/
def State.wakeUp (s : State) (src : WakeSource) : State :=
  let s1 := if s.clk < s.power.downUntil then (s.pwrEvt 1).modPower fun p => { p with wakeDown := true } else s
  { s1 with
    phase := .powerUp
    rst := { s1.rst with fromReset := false, fromStep := 1, coldBoot := true, wdtSince := s.clk }
    chain := { s1.chain with gangway := true, gangwayUp := (if src = .stern then .stern else .bow),
                              gangwayFrom := Nat.max s.clk s.power.downUntil + (if src = .pin then 1000 else 0) }
    power := { s1.power with wake := src, pinToo := decide (src = .pin) } }

/-- CK_WAKE (R61): 16 CK edges within 20 µs at a port armed for it. -/
def execCkWake (port : Port) (s : State) : Result :=
  .next <|
    if s.phase ≠ .anchored ∨ !s.power.wakeArmed.getLsbD port.code then s
    else s.wakeUp (match port with | .bow => .bow | .stern => .stern)

/-- WAKE_PIN (R61, R65): held high for 1 ms, it wakes the unit, or makes the power-up of a CK wake irreversible. -/
def execWakePin (s : State) : Result :=
  .next <|
    if !s.power.wakeArmed.getLsbD 2 then s
    else match s.phase with
      | .anchored => s.wakeUp .pin
      | .powerUp => if s.rst.fromReset then s else s.modPower fun p => { p with pinToo := true }
      | _ => s

end Sys2Proof.Machine
end

