-- ==== Sys2Proof/Machine/Supply.lean ====
section
/-! DEFINITION. Supply events and the loss of CK: the handover and the return of VBAT (chapter 3), VBAT above 36 V (R36), and
holdover with STRANDED (R156, R207). -/
namespace Sys2Proof.Machine

open Sys2Proof

/-! ### VBAT and VHLD (R59, R75, R76, R79) -/

/-- VBATGOOD (R59, R76, R78, R79): the comparators see VBAT and VHLD, in 0.1 V. -/
def execVbatGood (vbat vhld : Nat) (s : State) : Result := .next ((s.vbatRises vbat).seeVhld vhld)

/-- VBAT_RETURN (R75). -/
def execVbatReturn (vbat : Nat) (s : State) : Result := .next (s.vbatRises vbat)

/-! ### Handover (Table 3.7) -/

/-- Step 1: records committed with the state left, action and limit latched, an ANCHOR wait cancelled; charger and converter stop as
VBATGOOD falls (R67 to R69, R78, R306). -/
def State.startHandover (s : State) : State :=
  let s1 := ((s.record 0x006 63 (w24 s.unit.st.code)).modRec Recorder.commitAll).saveCounts
  (s1.modPower fun p =>
    { p with
      handover := some { hoAct := s.reg Reg.hoAct, hoTime := s.regN Reg.hoTime, started := s.clk
                         inDrydock := decide (s.unit.st = .drydock), mark := s1.recorder.next }
      anchorDue := none, returnAt := none, returnArmed := false }).refresh

/-- The valves whose limit fault stands at level 4 as a handover comes to its steps ("Where things meet" of chapter 12). -/
def State.faultedValves (s : State) : BitVec 8 :=
  if s.unit.st.armed then (allValves.filter fun v => decide ((s.pwm.valves[v]).fault ≠ 0)).foldl (fun b v => raise b v.val) 0 else 0

/-- Steps 2 to 5: crossings end, the notice is queued, and the outputs take the handover's demand (R70 to R72, R275). -/
def State.actHandover (s : State) : State :=
  let s1 := s.modPower fun p =>
    { p with handover := p.handover.map fun (h : Handover) => { h with acting := true, faulted := h.faulted ||| s.faultedValves } }
  (((s1.endAll .handover).closeLevels).notice [.word "HANDOVER"]).refresh

/-- Whether the handover's steps 2 to 5 are due, 0.8 ms after the trigger (Table 3.7). -/
def State.handoverDue (s : State) : Bool :=
  decide (s.phase = .running) && match s.power.handover with
    | some h => !h.acting && decide (h.started + 800 ≤ s.clk)
    | none => false

/-- Whether VBAT has been known below VBAT_LOW for 200 µs, to 10 µs, with VBATGOOD still 1 (R59, R400). -/
def State.lowDue (s : State) : Bool :=
  match s.power.lowSince with
  | some t => bandActs .vbatFilter s.clk (decide (t + 210 ≤ s.clk)) (decide (t + 190 ≤ s.clk))
  | none => false

/-- HANDOVER (R59, R68, Table 3.7): VBAT has stayed below VBAT_LOW for 200 µs. A handover that has begun comes to its steps 2 to 5; VBATGOOD
falls in any state, a handover starts only in a running one. -/
def execHandover (vbat : Nat) (s : State) : Result :=
  .next <|
    if s.handoverDue then s.actHandover
    else if !(s.lowDue && decide (vbat = s.power.vbat)) && !belowLow vbat (s.regN Reg.vbatLow) s.clk then s
    else
      let s1 := s.modPower fun p => { p.seeVbat vbat (s.regN Reg.vbatLow) s.clk with vbatGood := false, returnAt := none, lowSince := none }
      if s.phase ≠ .running ∨ s.power.handover.isSome then s1.refresh else s1.startHandover

/-- Whether a valve's handover or limit run has outlasted its limit: the latched HO_TIME, or the one in force (R69, R70,
R209). In a limit action it counts from the start of the valve's own run (DESIGN CHOICE, log 42). -/
def State.hoTimeUp (s : State) (v : Fin 8) : Bool :=
  match (s.pwm.valves[v]).run with
  | some r => match r.why with
    | .handover => match s.power.handover with
      | some h => decide (h.started + 800 + 1000 * h.hoTime ≤ s.clk)
      | none => false
    | .limit => decide (r.startClk + 1000 * s.regN Reg.hoTime ≤ s.clk)
    | _ => false
  | none => false

/-- A valve stopped by HO_TIME brakes (R70). -/
def State.stopByTime (s : State) (v : Fin 8) : State :=
  let why := match (s.pwm.valves[v]).run with
    | some r => r.why
    | none => .handover
  ((s.modBridge v fun y =>
    { y with run := none, bridge := .brake, brakeUntil := some (s.clk + 1000 * s.regN (Reg.mvBrake v)) }).pwrEvt
    2).recordValveEnd v why 3

/-- HO_TIMEOUT (R70): every valve whose limit has run out brakes; SAFE follows once all have stopped. -/
def execHoTimeout (s : State) : Result :=
  .next <|
    if allValves.any s.hoTimeUp then (allValves.foldl (fun t v => if s.hoTimeUp v then t.stopByTime v else t) s).refresh
    else s

/-- Whether 50 ms of VBATGOOD after step 7 are over (R76). -/
def State.returnDue (s : State) : Bool :=
  decide (s.phase = .running) && match s.power.returnAt with
    | some t => decide (t ≤ s.clk)
    | none => false

/-- HANDOVER_RETURN (R76, R206): the HANDOVER cause clears; without another cause the unit enters MOORED. -/
def execHandoverReturn (s : State) : Result :=
  .next <|
    if !s.returnDue then s
    else
      let s1 := ({ s with
        power := { s.power with returnAt := none, returnArmed := false }
        unit := { s.unit with safe := drop s.unit.safe 1 } } : State).markStale
      if s1.unit.safe = 0 ∧ s1.unit.st = .safe then (s1.enter .moored .return_).refresh else s1

/-! ### VBAT above 36 V (R36) -/

/-- VBAT_HIGH (R36): the keeper, which needs no core, holds every output off; each entry above 36 V is recorded where the recorder is
powered (DEDUCED, log 83). A VBAT that high sets VBATGOOD too (R59). -/
def execVbatHigh (vbat : Nat) (s : State) : Result :=
  .next <|
    if s.power.vbatOver || !overTrip vbat s.clk then s
    else
      let s1 := (s.modPower fun p => { p with vbatOver := true, vbatHigh := true }).vbatRises vbat
      let s2 := s1.modPower fun p => { p with vbatOver := true }
      (if s.coreUp then s2.record 0x008 63 0 else s2).refresh

/-- VBAT_HIGH_RELEASE (R36, R59, R400): VBAT has stayed below 35 V for 1 ms; each channel takes the demand in force. -/
def execVbatHighRelease (vbat : Nat) (s : State) : Result :=
  .next <|
    if !s.power.vbatHigh || !bandActs .vbatRelease s.clk (decide (vbat < 347)) (decide (vbat < 350)) then s
    else ((s.modPower fun p => { p with vbatOver := false, vbatHigh := false }).vbatRises vbat).refresh

/-! ### Loss of CK (R24, R128, R156, R182, R207) -/

/-- Every pair of both ports receives: what waits on UP and what it owes is lost, but for the notices a helm swap holds (R156,
R162, R182, R201). -/
def Chain.release (c : Chain) : Chain :=
  { c with released := true, upQ := [], upBuf := [], upLeft := 0, turnsDue := [], outstanding := [], bow := { c.bow with aligned := false }
           stern := { c.stern with aligned := false } }

/-- Holdover: chain time runs on the NCO; the event and its record where chain time was set (Table 5.4, R112, R127, R128). 32 cycles missing
again before the rate was recognised are an entry of their own (DESIGN CHOICE, log 84). -/
def State.enterHoldover (s : State) (p : Port) : State :=
  let s1 := s.dropCk.modClk fun c => { c with aligned := false }
  if s.clocks.mode = .unset then s1
  else
    ((s1.modClk fun c => { c with mode := .holdover, holdIrc := !c.xoStable }).clkEvt 3).record 0x044 63 (w24 p.code)

/-- A unit UNDERWAY becomes STRANDED: its counts start, and SPEED gives way to STA.STR_SRC (R207, R208, R247). -/
def State.strand (s : State) : State :=
  let s1 := s.modUnit fun u => { u with strUsed := 0, strUs := 0, strPos := s.motion.pos }
  (s1.switchSource.enter .stranded .cklost).refresh

/-- HOLDOVER_ENTRY (R24, R113, R156, R167): 32 consecutive CK cycles are missing at the upstream port. Without a core to drive pairs, or once
they all receive, only the rate is lost. -/
def execHoldoverEntry (s : State) : Result :=
  .next <|
    if !s.coreUp || s.chain.released then (if s.clocksRun && decide (s.clocks.rate ≠ 0) then s.dropCk else s)
    else
      let p := s.chain.upPort
      let s1 := ((s.enterHoldover p).modPort p fun x => { x with eCkLoss := satInc x.eCkLoss })
      let s2 := ({ s1 with chain := s1.chain.release } : State).resetReplyLeft
      if s2.unit.st = .underway then s2.strand else s2

end Sys2Proof.Machine
end

