-- ==== Sys2Proof/Machine/Line.lean ====
section
/-! DEFINITION. What every Manil line shares (chapters 7 and 8): its place in the queue, the checks of Table 7.5 that do not
depend on its verb's own rules, its reply, and its channel list. A line's meaning names its refusal, if it earns one, and
its effect with the text of its OK reply. -/
namespace Sys2Proof.Machine

open Sys2Proof

/-- The purser's state changes. -/
def State.modManil (s : State) (f : Manil → Manil) : State := { s with manil := f s.manil }

/-! ### Refusals -/

/-- The first refusal of the checks in order (R183). -/
def firstErr (l : List (Option Err)) : Option Err := l.findSome? id

/-- A refusal where a condition holds. -/
def errIf (b : Bool) (code : Nat) (detail : List Tok := []) : Option Err := if b then some { code, detail } else none

/-- A refusal with a word as its detail. -/
def errWord (b : Bool) (code : Nat) (w : String) : Option Err := errIf b code [.word w]

/-- The rows of Table 8.6. -/
inductive Legal where
  | always
  | alwaysReads
  | notDock
  | settings
  | moored
  | imageWrite
  | dockOnly
  | reset
  | anchor
  | moorOrSafe
  | moor
  | clear
  | arm
  | go
  | halt
  | manual
  | cross
deriving DecidableEq, Repr

/-- Whether Table 8.6 marks a row Y in a state. -/
def Legal.allows : Legal → UnitState → Bool
  | .always, _ => true
  | .alwaysReads, _ => true
  | .notDock, u => decide (u ≠ .drydock)
  | .settings, u => decide (u ≠ .drydock) && decide (u ≠ .stranded)
  | .moored, u => decide (u = .moored)
  | .imageWrite, u => decide (u = .moored) || decide (u = .drydock)
  | .dockOnly, u => decide (u = .drydock)
  | .reset, u => decide (u ≠ .underway) && decide (u ≠ .stranded)
  | .anchor, u => decide (u = .moored) || decide (u = .safe) || decide (u = .drydock)
  | .moorOrSafe, u => decide (u = .moored) || decide (u = .safe)
  | .moor, u => decide (u = .moored) || decide (u = .ready) || decide (u = .safe)
  | .clear, u => decide (u = .moored) || decide (u = .ready) || decide (u = .safe)
  | .arm, u => decide (u = .moored)
  | .go, u => decide (u = .ready) || decide (u = .stranded)
  | .halt, u => decide (u = .ready) || decide (u = .underway) || decide (u = .stranded)
  | .manual, u => decide (u = .ready)
  | .cross, u => decide (u = .moored) || decide (u = .ready) || decide (u = .underway)

/-- The rows Table 8.6 refuses with ERR 22 UNTESTED in DRYDOCK. -/
def Legal.untested : Legal → Bool
  | .arm => true
  | .go => true
  | .manual => true
  | .cross => true
  | _ => false

/-- Check 5 of Table 7.5: a handover leaves only ID, STATE, GET and LOG (R73); else Table 8.6 (R211, R102). -/
def State.stateErr (s : State) (l : Legal) : Option Err :=
  if s.power.handover.isSome then errWord (decide (l ≠ .alwaysReads)) 16 "HANDOVER"
  else if l.allows s.judged then none
  else if l.untested ∧ s.judged = .drydock then some { code := 22 }
  else some { code := 13, detail := [.word s.judged.word] }

/-- What a source may send (R191, R192). -/
inductive LineClass where
  | read
  | write
deriving DecidableEq, Repr

/-- Check 4 of Table 7.5 for a write class line from the console (R191, R192, R213). -/
def State.ownerErr (s : State) (src : Source) (c : LineClass) : Option Err :=
  if src = .console ∧ c = .write then
    firstErr [errWord (decide (s.judged ≠ .moored)) 14 "MOORED", errWord s.manil.conLock 14 "LOCK"]
  else none

/-- A one-time lock, authorisation, values and resources follow source and state in the order of Table 7.5 (R183). -/
def State.refuse (s : State) (ln : LineHdr) (c : LineClass) (l : Legal) (more : List (Option Err) := []) : Option Err :=
  firstErr (s.ownerErr ln.src c :: s.stateErr l :: more)

/-- Whether a source holds a valid authorisation (R388). -/
def State.authorised (s : State) (src : Source) : Bool := (s.owner.of src).grant.isSome

/-- ERR 15 AUTH where a needed authorisation is not held. -/
def State.authErr (s : State) (src : Source) (needed : Bool := true) : Option Err := errIf (needed && !s.authorised src) 15

/-! ### Queues, replies and the TURN after a reply -/

/-- A source's queue. -/
def Manil.queue (m : Manil) : Source → List QLine
  | .chain => m.chainQ
  | .console => m.conQ

/-- A source's queue is replaced. -/
def State.setQueue (s : State) (src : Source) (q : List QLine) : State :=
  match src with
  | .chain => s.modManil fun m => { m with chainQ := q }
  | .console => s.modManil fun m => { m with conQ := q }

/-- The TURN an end unit owes for a sweep line follows its own reply (R153). -/
def State.payTurn (s : State) (turn : Option Sweep) : State :=
  match turn with
  | none => s
  | some x =>
    if s.chain.turnsDue.any fun d => decide (d.crc = x.crc ∧ d.seq = x.seq) then
      (s.modChain fun c => { c with turnsDue := c.turnsDue.filter fun d => !decide (d.crc = x.crc ∧ d.seq = x.seq) }).sendTurn
        x.crc x.seq
    else s

/-- A reply leaves in its turn: a chain reply waits behind that of a MUSTER line before it (R181, R195). -/
def State.sendReply (s : State) (src : Source) (b : ReplyBody) (reset : Bool) (turn : Option Sweep) : State :=
  if src = .chain ∧ s.manil.held ≠ [] then s.modManil fun m => { m with held := m.held ++ [.reply b reset turn] }
  else (s.reply src b reset).payTurn turn

/-- Replies that no MUSTER holds up any longer leave in order. -/
def State.sendHeld (s : State) : List HeldReply → State
  | .reply b reset turn :: rest => ((s.reply .chain b reset).payTurn turn).sendHeld rest
  | l => s.modManil fun m => { m with held := l }

/-- Whether the line that executes is one whose reset waits for the reply to be made now. -/
def ResetCtl.replyDue (r : ResetCtl) : Bool := r.soft.any (·.unsent)

/-- The reset of a line whose reply has been made waits for that reply alone. -/
def ResetCtl.replyMade (r : ResetCtl) : ResetCtl := { r with soft := r.soft.map fun (x : SoftReset) => { x with unsent := false } }

/-- A line is answered: ERR 10 counts in MNL.E_SYNTAX, ERR 20 was counted when the line completed (Table 7.9), the reply leaves,
and the TURN owed follows it. -/
def State.answer (s : State) (src : Source) (b : ReplyBody) (turn : Option Sweep) : State :=
  let s1 := match b with
    | .err e => if e.code = 10 then s.modManil fun m => { m with eSyntax := satInc m.eSyntax } else s
    | .ok _ => s
  (s1.modRst ResetCtl.replyMade).sendReply src b s1.rst.replyDue turn

/-- Whether a line lacks the checksum that STRICT asks of it when it executes (R178, R212). -/
def State.lacksSum (s : State) (src : Source) (q : QLine) : Bool := q.bare && decide (src = .chain) && bit (s.reg Reg.mnlCfg) 0

/-- ERR 20 CHECK for a line without a checksum, counted (R178, Table 7.9). -/
def State.refuseBare (s : State) (src : Source) (turn : Option Sweep) : State :=
  (s.modManil fun m => { m with eCheck := satInc m.eCheck }).answer src (.err { code := 20 }) turn

/-- Lines at the head of a queue whose text already earned a refusal are answered in turn. -/
def State.answerRefused (s : State) (src : Source) : List QLine → State
  | q :: rest =>
    match q.what with
    | .inr e =>
      let s1 := s.setQueue src rest
      (if s.lacksSum src q then s1.refuseBare src q.turn else s1.answer src (.err e) q.turn).answerRefused src rest
    | .inl _ => s
  | [] => s

/-- The line as it stood in its queue; one that comes from no queue was complete after every tide so far. -/
def State.queued (s : State) (i : Instr) (src : Source) : QLine :=
  match s.manil.queue src with
  | q :: _ => if q.what = .inl i then q else { what := .inl i, tides := s.manil.tideCount }
  | [] => { what := .inl i, tides := s.manil.tideCount }

/-- The line leaves the head of its queue. -/
def State.dropLine (s : State) (i : Instr) (src : Source) : State :=
  match s.manil.queue src with
  | q :: rest => if q.what = .inl i then s.setQueue src rest else s
  | [] => s

/-- Whether a line stands at the head of its source's queue. -/
def State.atHead (s : State) (i : Instr) (src : Source) : Bool :=
  match s.manil.queue src with
  | q :: _ => decide (q.what = .inl i)
  | [] => false

/-- What an address makes of a line (R171): it designates this unit, or another; on the console it is refused; on the chain
it may be invalid. -/
inductive Verdict where
  | mine
  | other
  | refused
  | invalid
deriving DecidableEq, Repr

/-- The verdict on an address form of Table 7.3. -/
def State.verdict (s : State) (ln : LineHdr) : Verdict :=
  let own := s.chain.addr.toNat
  match ln.src with
  | .console =>
    match ln.addr with
    | .self => .mine
    | .unit n => if n = own ∧ 1 ≤ n then .mine else .refused
    | _ => .refused
  | .chain =>
    match ln.addr with
    | .self => .invalid
    | .unit n => if n = 0 ∨ 128 < n then .invalid else if n = own then .mine else .other
    | .range n m => if n = 0 ∨ 128 < m ∨ m < n then .invalid else if n ≤ own ∧ own ≤ m then .mine else .other
    | .all => .mine
    | .zero => if own = 0 then .mine else .other

/-- A chain line with an invalid address is counted (R171). -/
def State.countAddr (s : State) : State := s.modManil fun m => { m with eAddr := satInc m.eAddr }

/-- A designated line executes (R181, R183, R184, R212): it is refused with its error, or has its effect and, where it has one
now, its OK reply. -/
def State.runLine (s : State) (i : Instr) (ln : LineHdr) (refusal : Option Err)
    (run : QLine → State → State × Option ReplyBody) : State :=
  let q := s.queued i ln.src
  let s1 := s.dropLine i ln.src
  if s.lacksSum ln.src q then s1.refuseBare ln.src q.turn
  else match refusal with
  | some e => s1.answer ln.src (.err e) q.turn
  | none =>
    match run q s1 with
    | (t, some b) => t.answer ln.src b q.turn
    | (t, none) => t

/-- A line comes to execute: one from the queue was judged by its address when it completed, any other is judged now. A purser
that does not run executes nothing. Refusals that then stand at the head of the queue are answered in turn. -/
def State.line (s : State) (i : Instr) (ln : LineHdr) (refusal : Option Err)
    (run : QLine → State → State × Option ReplyBody) : State :=
  if !s.live then s
  else
    let s1 :=
      if s.atHead i ln.src then s.runLine i ln refusal run
      else match s.verdict ln with
        | .mine => s.runLine i ln refusal run
        | .other => s
        | .refused => s.answer ln.src (.err { code := 10, detail := [.word "ADDRESS"] }) none
        | .invalid => s.countAddr
    s1.answerRefused ln.src (s1.manil.queue ln.src)

/-- A line whose reply tells what it read or did. -/
def State.tellLine (s : State) (i : Instr) (ln : LineHdr) (refusal : Option Err) (run : State → State)
    (text : State → List Tok) : State :=
  s.line i ln refusal fun _ t => (run t, some (.ok (text (run t))))

/-- A line whose effect is a change of state and whose reply is a bare OK. -/
def State.plainLine (s : State) (i : Instr) (ln : LineHdr) (refusal : Option Err) (run : State → State) : State :=
  s.line i ln refusal fun _ t => (run t, some (.ok []))

/-! ### Arguments -/

/-- A number as a natural, 0 where it is negative. -/
def natOf (n : LineNum) : Nat := n.val.toNat

/-- ERR 12 RANGE with the name of an argument where a number lies outside a range. -/
def rangeErr (n : LineNum) (lo hi : Int) (name : String) : Option Err :=
  errWord (!(decide (lo ≤ n.val) && decide (n.val ≤ hi))) 12 name

/-- ERR 10 SYNTAX UNIT where a number carries a suffix that is not its argument's base unit (R172). -/
def unitErr (n : LineNum) (u : Option Suffix := none) : Option Err := errWord (decide (n.suffix ≠ none ∧ n.suffix ≠ u)) 10 "UNIT"

/-- The suffix of a base unit, where it has one (R6, R172). -/
def suffixOf (unit : String) : Option Suffix :=
  if unit == "mA" then some .mA
  else if unit == "ms" then some .ms
  else if unit == "mm" then some .mm
  else if unit == "Hz" then some .hz
  else if unit == "%" then some .percent
  else none

/-- The suffix a value for a path may carry; a path that exists nowhere has none to judge by. -/
def pathSuffix (p : PathInfo) : Option Suffix :=
  match p.holds with
  | .quantity u _ _ _ => suffixOf u
  | .fields _ => none

/-- The name of a path in a reply (R173). -/
def pathName (a : Nat) : String :=
  match pathInfo a with
  | some p => p.name
  | none => ""

/-- The register a path argument names. -/
def pathAddr : PathArg → Option Nat
  | .reg a => if (pathInfo a.toNat).isSome then some a.toNat else none
  | .unknown _ => none

/-- A path argument as it was written. -/
def pathText : PathArg → String
  | .reg a => "#" ++ String.ofList (hexText 2 (a.toNat / 256)) ++ "." ++ String.ofList (hexText 2 (a.toNat % 256))
  | .unknown n => n

/-- ERR 11 UNKNOWN naming the first path that exists nowhere (Table 7.5). -/
def unknownPath (ps : List PathArg) : Option Err :=
  (ps.find? fun p => (pathAddr p).isNone).map fun p => { code := 11, detail := [.word (pathText p)] }

/-! ### Channel lists (R174, R300) -/

/-- The kinds of channel a verb acts on. -/
inductive ChanClass where
  | all
  | sol
  | valve
deriving DecidableEq, Repr

/-- Whether a channel is of a kind. -/
def ChanClass.has : ChanClass → Fin 40 → Bool
  | .all, _ => true
  | .sol, c => decide (c.val < 32)
  | .valve, c => decide (32 ≤ c.val)

/-- A number as a detail shows it: 0 where it was written as a `-` before 0 (R172, R176). -/
def shownNum (n : LineNum) : Int := if n.minusZero then 0 else n.val

/-- The channels an item covers; an odd member of a pair is left out of a range or ALL (R300). -/
def State.itemChans (s : State) : ChanItem → List (Fin 40)
  | .one n => allChans.filter fun c => decide (c.val = n)
  | .range a b => allChans.filter fun c => decide (a ≤ c.val) && decide (c.val ≤ b) && !s.oddChan c
  | .all => allChans.filter fun c => !s.oddChan c

/-- The channels a list names, each once, in ascending order. -/
def State.listChans (s : State) (l : List ChanItem) : List (Fin 40) :=
  let named := l.flatMap s.itemChans
  allChans.filter fun c => named.contains c

/-- ERR 12 RANGE where an item is out of range, names a channel of the other kind, or names an odd member singly (R174,
R300). ALL names every channel of the unit, so a verb that acts on one kind refuses it (DESIGN CHOICE, log 98). -/
def State.itemErr (s : State) (k : ChanClass) (x : ChanItem) : Option Err :=
  let shape := match x with
    | .one n => errIf (decide (40 ≤ n)) 12 [.num n]
    | .range a b => errWord (decide (40 ≤ a) || decide (40 ≤ b) || decide (b < a)) 12 (toString a ++ "-" ++ toString b)
    | .all => none
  let odd := match x with
    | .one _ => (s.itemChans x).any s.oddChan
    | _ => false
  firstErr [shape, errWord (!(s.itemChans x).all k.has) 12 "CH", errWord odd 12 "PAIR"]

/-- The first refusal a channel list earns by its values. -/
def State.listErr (s : State) (k : ChanClass) (l : List ChanItem) : Option Err := l.findSome? (s.itemErr k)

/-- The refusal of a single channel argument (R174, R300). -/
def State.chanErr (s : State) (k : ChanClass) (n : LineNum) : Option Err :=
  if 0 ≤ n.val ∧ n.val < 40 then s.itemErr k (.one (natOf n)) else some { code := 12, detail := [.num (shownNum n)] }

/-- A single channel argument. -/
def chanNum (n : LineNum) : Fin 40 := if h : n.val.toNat < 40 then ⟨n.val.toNat, h⟩ else 0

/-- CHcc as the detail that names a channel. -/
def chanTok (c : Fin 40) : Tok := .word ("CH" ++ twoDigits c.val)

end Sys2Proof.Machine
end

