-- ==== Sys2Proof/Machine/Auth.lean ====
section
/-! DEFINITION. AUTH: challenge and response (R386 to R389). -/
namespace Sys2Proof.Machine

open Sys2Proof

/-- The refusal of an AUTH line: a lockout runs, or no key is set (R386, R389). -/
def State.authLineErr (s : State) (ln : LineHdr) : Option Err :=
  s.refuse ln .write .always
    [errWord (s.owner.of ln.src).lockout.isSome 16 "AUTH", errIf s.owner.key.isNone 21]

/-- A new nonce for a source (R386): it replaces the one outstanding, and the authorisation held ends. -/
def State.challenge (s : State) (src : Source) : State :=
  let n := Config.nonce s.owner.nonces
  let s1 := s.modAuth src fun a => { a with nonce := some (n, s.clk + 30000000), grant := none }
  { s1 with owner := { s1.owner with nonces := s1.owner.nonces + 1 } }

/-- AUTH (R386). -/
def execAuth (ln : LineHdr) (s : State) : Result :=
  .next <|
    s.tellLine (.auth ln) ln (s.authLineErr ln) (·.challenge ln.src) fun t =>
      [.word "AUTH", .num (match (t.owner.of ln.src).nonce with
        | some (n, _) => n.toNat
        | none => 0)]

/-- The owner key as bytes K0 to K15 (R385). -/
def keyBytes (k : Vector Word 6) : List Byte :=
  ((k.toList.take 5).flatMap fun w => beBytes 3 w.toNat) ++ beBytes 1 (k[5]).toNat

/-- The response to a nonce (R387, Table 15.5). -/
def responseTo (key : Vector Word 6) (nonce serial : ChainTime) : List Byte :=
  (hmac256 (keyBytes key) (beBytes 6 nonce.toNat ++ beBytes 6 serial.toNat)).take 6

/-- Whether a response is right: to the outstanding nonce, while it is valid (R387, R388). -/
def State.responseHolds (s : State) (src : Source) (response : List Byte) : Bool :=
  match s.owner.key, (s.owner.of src).nonce with
  | some key, some (n, due) => decide (s.clk < due) && decide (responseTo key n s.chain.serial = response)
  | _, _ => false

/-- A right response: the source is authorised for OWN.TTL seconds, and its count of failures is 0 (R387 to R389). -/
def State.grant (s : State) (src : Source) : State :=
  s.modAuth src fun a => { a with nonce := none, grant := some (s.clk + 1000000 * s.regN Reg.ownTtl), fails := 0 }

/-- A wrong response (R389): recorded and counted; the third in a row locks the source out for 60 s. -/
def State.authFailed (s : State) (src : Source) : State :=
  let n := (s.owner.of src).fails + 1
  let s1 := s.modAuth src fun a =>
    { a with nonce := none, fails := if 3 ≤ n then 0 else n
             lockout := if 3 ≤ n then some (s.clk + 60000000) else a.lockout }
  let s2 := s1.modRec fun r => { r with eAuth := satInc r.eAuth, evt := raise r.evt 5 }
  (s2.record 0x2C8 src.code (BitVec.ofNat 24 n)).notice [.word "AUTH", .word "FAIL", .word src.word]

/-- AUTH_RESPONSE (R387 to R389). -/
def execAuthResponse (ln : LineHdr) (response : List Byte) (s : State) : Result :=
  .next <|
    s.line (.authResponse ln response) ln
      (firstErr [errWord (decide (response.length ≠ 6)) 10 "ARGS", s.authLineErr ln])
      fun _ t =>
        if t.responseHolds ln.src response then (t.grant ln.src, some (.ok [.word "AUTH", .word "GRANTED"]))
        else (t.authFailed ln.src, some (.err { code := 15 }))

end Sys2Proof.Machine
end

