-- ==== Sys2Proof/Machine/Image.lean ====
section
/-! DEFINITION. Image slots and their loading (R98, R103 to R105, Table 4.8). -/
namespace Sys2Proof.Machine

open Sys2Proof

/-- The name of a slot. -/
def slotWord (k : Slot) : String := slotName (slotIndex k).val

/-- The bytes a slot holds (R98). -/
def slotSize : Slot → Nat
  | .pa => 524288
  | .pb => 524288
  | .la => 65536
  | .lb => 65536

/-- A version as major, minor and patch (R98). -/
def versionText (v : Word) : String :=
  toString (v.toNat / 65536) ++ "." ++ toString (v.toNat / 256 % 256) ++ "." ++ toString (v.toNat % 256)

/-- The slots of the running pair; the dock loader runs none. -/
def Boot.running (b : Boot) : List Slot :=
  if b.purser = 2 then [] else [if b.purser = 1 then .pb else .pa, if b.pilotB then .lb else .la]

/-- A slot in the reply to IMAGE. -/
def Boot.slotToks (b : Boot) (k : Slot) : List Tok :=
  let x := b.slot k
  [.word (slotWord k), .word (match x.st with
    | .empty => "EMPTY"
    | .loading => "LOADING"
    | .bad => "BAD"
    | .valid => versionText x.version ++ "/" ++ toString x.ifl.toNat)]

/-- The reply to IMAGE: the running pair and the four slots (Table 4.8); while the dock loader runs the word DOCK stands for the
pair (DESIGN CHOICE, log 16). -/
def Boot.listToks (b : Boot) : List Tok :=
  [.word "IMAGE", .word "RUN"] ++
    (match b.running with
      | [] => [.word "DOCK"]
      | l => l.map fun k => .word (slotWord k)) ++
    ([.pa, .pb, .la, .lb] : List Slot).flatMap b.slotToks

/-- IMAGE and IMAGE LIST. -/
def execImageList (ln : LineHdr) (s : State) : Result :=
  .next <| s.tellLine (.imageList ln) ln (s.refuse ln .read .always) id fun t => t.boot.listToks

/-- An acceptance that stands on a slot is void once the slot is reloaded or retired (R103). -/
def Boot.voidAccepted (b : Boot) (k : Slot) : Boot :=
  match b.accepted with
  | some (p, l, _, _) => if k = p ∨ k = l then { b with accepted := none } else b
  | none => b

/-- The boot controller changes. -/
def State.modBoot (s : State) (f : Boot → Boot) : State := { s with boot := f s.boot }

/-- ERR 16 BUSY where a slot is open. -/
def State.openBusy (s : State) : Option Err := errWord s.boot.openSlot.isSome 16 "IMAGE"

/-- ERR 21 GONE where no slot is open. -/
def State.noOpen (s : State) : Option Err := errWord s.boot.openSlot.isNone 21 "IMAGE"

/-- ERR 18 ACTIVE where a slot is in use by the running pair (R104). -/
def State.slotActive (s : State) (k : Slot) : Option Err := errWord (s.boot.running.contains k) 18 (slotWord k)

/-- IMAGE_OPEN (R104): the slot is erased and LOADING. -/
def execImageOpen (ln : LineHdr) (slot : Slot) (size : LineNum) (s : State) : Result :=
  .next <|
    s.plainLine (.imageOpen ln slot size) ln
      (firstErr [unitErr size, s.refuse ln .write .imageWrite
        [s.authErr ln.src,
         errWord (decide (size.val < 0) || decide ((slotSize slot : Int) < size.val) || decide (size.val % 32 ≠ 0)) 12 "SIZE",
         s.openBusy, s.slotActive slot]])
      fun t => t.modBoot fun b =>
        { (b.voidAccepted slot).setSlot slot { st := .loading, size := natOf size } with openSlot := some slot }

/-- The slot that is open and what it holds. -/
def Boot.opened (b : Boot) : Option (Slot × ImageSlot) := b.openSlot.map fun k => (k, b.slot k)

/-- ERR 12 RANGE where an offset is negative, or not the next unwritten one of the open slot (R172, Table 4.8). -/
def State.offsetErr (s : State) (offset : LineNum) : Option Err :=
  match s.boot.opened with
  | some (_, x) => errWord (decide (offset.val ≠ x.data.length) || decide (x.size ≤ x.data.length)) 12 "OFFSET"
  | none => errWord (decide (offset.val < 0)) 12 "OFFSET"

/-- IMAGE_DATA (Table 4.8): 32 bytes at the next unwritten offset. -/
def execImageData (ln : LineHdr) (offset : LineNum) (data : List Byte) (s : State) : Result :=
  .next <|
    s.plainLine (.imageData ln offset data) ln
      (firstErr [unitErr offset, countErr data.length, s.refuse ln .write .imageWrite [s.offsetErr offset, s.noOpen]])
      fun t => match t.boot.opened with
        | some (k, x) => t.modBoot fun b => b.setSlot k { x with data := x.data ++ data }
        | none => t
where
  countErr (n : Nat) : Option Err := errWord (decide (n ≠ 32)) 10 "ARGS"

/-- A loaded slot checked: its size, its header and its digest (R98, Table 4.8); none where a check fails. -/
def ImageSlot.check (x : ImageSlot) : Option ImageSlot :=
  match Config.imageHeader x.data with
  | some (version, ifl, size, digest, tested) =>
    if x.data.length = x.size ∧ ifl ≠ 0 ∧ tested.length ≤ 16 ∧ (Config.imageBody x.data).length = size
        ∧ sha256 (Config.imageBody x.data) = digest then
      some { x with st := .valid, version := version, ifl := ifl, digest := digest, tested := tested }
    else none
  | none => none

/-- IMAGE_CLOSE (Table 4.8, R105): VALID, or EMPTY with ERR 20 CHECK. -/
def execImageClose (ln : LineHdr) (s : State) : Result :=
  .next <|
    s.line (.imageClose ln) ln (s.refuse ln .write .imageWrite [s.noOpen]) fun _ t =>
      match t.boot.opened with
      | some (k, x) =>
        match x.check with
        | some y => (t.modBoot fun b => { b.setSlot k y with openSlot := none }, some (.ok []))
        | none => (t.modBoot Boot.dropLoading, some (.err { code := 20 }))
      | none => (t, some (.ok []))

/-- IMAGE_CANCEL (Table 4.8). -/
def execImageCancel (ln : LineHdr) (s : State) : Result :=
  .next <| s.plainLine (.imageCancel ln) ln (s.refuse ln .write .imageWrite [s.noOpen]) fun t => t.modBoot Boot.dropLoading

/-- A slot is EMPTY; where it was open it is so no more. -/
def Boot.retire (b : Boot) (k : Slot) : Boot :=
  { (b.voidAccepted k).setSlot k {} with openSlot := if b.openSlot = some k then none else b.openSlot }

/-- IMAGE_RETIRE (R101, R104). -/
def execImageRetire (ln : LineHdr) (slot : Slot) (s : State) : Result :=
  .next <|
    s.plainLine (.imageRetire ln slot) ln (s.refuse ln .write .imageWrite [s.authErr ln.src, s.slotActive slot])
      fun t => t.modBoot (·.retire slot)

/-- The highest pair of VALID slots (R103). -/
def Boot.bestValid (b : Boot) : Option (Slot × Slot) :=
  b.pairOrder.find? fun x => decide ((b.slot x.1).st = .valid) && decide ((b.slot x.2).st = .valid)

/-- A reset at Reach `n` follows once this line's reply has left (R85). -/
def State.resetAfterReply (s : State) (n delay : Nat) : State :=
  s.modRst fun r => { r with soft := some { reach := n, delay := delay } }

/-- IMAGE_ACCEPT_UNTESTED (R103): the pair is accepted against its digests, recorded, and a Reach 1 reset runs. -/
def execImageAcceptUntested (ln : LineHdr) (s : State) : Result :=
  .next <|
    s.plainLine (.imageAcceptUntested ln) ln
      (s.refuse ln .write .dockOnly
        [if s.boot.dockReason = 1 then none else some { code := 13, detail := [.word s.judged.word] }, s.authErr ln.src,
         errWord s.boot.bestValid.isNone 21 "PAIR"])
      fun t => match t.boot.bestValid with
        | some (p, l) =>
          let t1 := t.modBoot fun b => { b with accepted := some (p, l, (b.slot p).digest, (b.slot l).digest) }
          (t1.record 0x00B 63 (t1.readRst 0x10)).resetAfterReply 1 0
        | none => t

end Sys2Proof.Machine
end

