-- ==== Sys2Proof/Machine/Command.lean ====
section
/-! DEFINITION. The verbs that change the unit's state, its latches and its holds: RESET, ANCHOR, MOOR, ARM, GO, HALT, KILL,
RESUME, SHUT and FREE (chapters 3, 4, 8 and 14). -/
namespace Sys2Proof.Machine

open Sys2Proof

/-! ### RESET and ANCHOR -/

/-- The delay of an assertion at Reach 2 or above under a range or `@*` (R86), in µs. -/
def State.resetDelay (s : State) (a : AddrForm) (reach : Nat) : Nat :=
  match a with
  | .range _ _ => if 2 ≤ reach then (s.chain.addr.toNat + 3) % 4 * 15000 else 0
  | .all => if 2 ≤ reach then (s.chain.addr.toNat + 3) % 4 * 15000 else 0
  | _ => 0

/-- The effective Reach of a RESET line (R85). -/
def State.resetReach (s : State) (level : Option LineNum) : Nat :=
  match level with
  | some n => Nat.max (natOf n) (s.reachOf 7)
  | none => s.reachOf 7

/-- RESET (R85, R86): the reply leaves first. -/
def execReset (ln : LineHdr) (level : Option LineNum) (s : State) : Result :=
  .next <|
    s.plainLine (.reset ln level) ln
      (firstErr [level.bind unitErr, s.refuse ln .write .reset
        [level.bind fun n => errIf (decide (n.val < 1) || decide (4 < n.val)) 12 [.num (shownNum n)]]])
      fun t => t.resetAfterReply (t.resetReach level) (t.resetDelay ln.addr (t.resetReach level))

/-- ANCHOR (R62, Table 3.6): power-down follows after PWR.ANCHOR_DLY; an ANCHOR that waits already stands. -/
def execAnchor (ln : LineHdr) (s : State) : Result :=
  .next <|
    s.plainLine (.anchor ln) ln
      (s.refuse ln .write .anchor [errWord (decide (fld (s.reg Reg.pwrWake) 0 3 = 0)) 12 "PWR.WAKE"])
      fun t => t.modPower fun p =>
        { p with anchorDue := some (p.anchorDue.getD (t.clk + 1000 * t.regN Reg.anchorDly)) }

/-! ### MOOR, ARM, GO and HALT (Table 8.3) -/

/-- The names of the SAFE causes (Table 8.4). -/
def safeWord (k : Nat) : String :=
  match k with
  | 0 => "SELFTEST"
  | 1 => "HANDOVER"
  | 2 => "DISCREP"
  | _ => "STRANDED"

/-- The first SAFE cause other than STRANDED (R206). -/
def UnitStatus.otherCause (u : UnitStatus) : Option Nat := ([0, 1, 2] : List Nat).find? u.safe.getLsbD

/-- MOOR (Table 8.3, R206): from READY, or from SAFE with no cause but STRANDED; in MOORED it has no effect. -/
def execMoor (ln : LineHdr) (s : State) : Result :=
  .next <|
    s.plainLine (.moor ln) ln
      (s.refuse ln .write .moor
        [if s.judged = .safe then s.unit.otherCause.map fun k => { code := 18, detail := [.word (safeWord k)] } else none])
      fun t =>
        match t.judged with
        | .ready => (t.enter .moored .moor).refresh
        | .safe => ((t.modUnit fun u => { u with safe := drop u.safe 3 }).enter .moored .moor).refresh
        | _ => t

/-- ARM (R202): READY; the keepers release. Of several refusals KILL is named before STOP, TIME and HLDOK (DESIGN CHOICE, log 101). While an ANCHOR
waits it is judged as in MOORED, and only a unit that is in MOORED takes the transition (R67, R201; DEDUCED, log 27). -/
def execArm (ln : LineHdr) (s : State) : Result :=
  .next <|
    s.plainLine (.arm ln) ln
      (s.refuse ln .write .arm
        [errWord s.unit.kill 18 "KILL", errWord s.stopLatched 18 "STOP",
         errWord (decide (s.clocks.mode = .unset)) 16 "TIME",
         errWord (bit (s.reg Reg.hldCfg) 1 && !s.power.hldOk) 16 "HLDOK"])
      fun t => if t.unit.st = .moored then (t.enter .ready .arm).refresh else t

/-- A channel whose scheduled level HALT kept is cast in the first watch after GO (R275). -/
def XChan.castKeptLevel (x : XChan) : XChan := { x with castNext := decide (x.level ≠ .closed) }

/-- GO (R203): UNDERWAY; from STRANDED the counts are cleared, from READY the kept levels are cast next. -/
def State.goes (s : State) : State :=
  let s1 : State :=
    if s.unit.st = .stranded then s.modUnit fun u => { u with strUsed := 0, strUs := 0 }
    else { s with engine := { s.engine with chans := s.engine.chans.map XChan.castKeptLevel } }
  (s1.enter .underway .go).refresh

/-- GO (R203, R209). A limit action is named after BUSY TIME and before STALE (DESIGN CHOICE, log 101). -/
def execGo (ln : LineHdr) (s : State) : Result :=
  .next <|
    s.plainLine (.go ln) ln
      (s.refuse ln .write .go
        [errWord (!(decide (s.clocks.mode = .track) && s.clocks.aligned)) 16 "TIME",
         errWord s.unit.limitAction 18 "LIMIT", errIf s.anyStale 24])
      State.goes

/-- HALT (R204, R209, R275): casting stops, solenoids go through OFF, a valve completes its travel; in READY it has no
effect. -/
def execHalt (ln : LineHdr) (s : State) : Result :=
  .next <|
    s.plainLine (.halt ln) ln (s.refuse ln .write .halt [errWord s.unit.limitAction 18 "LIMIT"])
      fun t => if t.unit.st = .ready then t else ((t.endAll .halt).enter .ready .halt).refresh

/-! ### KILL and RESUME -/

/-- KILL_LINE (Table 7.7, R142): the latch as K.04 sets it. -/
def execKillLine (ln : LineHdr) (s : State) : Result :=
  .next <| s.plainLine (.killLine ln) ln (s.refuse ln .write .always) State.latchKill

/-- Whether a pair with a latch or a fault has not both channels on run for 10 ms (R367). -/
def State.resumeFails (s : State) : Bool :=
  allPairs.any fun p => let q := s.safety.pairs[p]
    (q.latch || q.discrep) && !q.run10

/-- A pair's latch and fault are cleared. -/
def Pair.clearLatch (q : Pair) : Pair := { q with latch := false, discrep := false }

/-- RESUME's effect (R205, R367): every latch and fault, and SAFE cause DISCREP with the last fault. -/
def State.resumes (s : State) : State :=
  let s1 := { s with safety := { s.safety with pairs := s.safety.pairs.map Pair.clearLatch }
                     unit := { s.unit with kill := false, safe := drop s.unit.safe 2 } }
  if s1.unit.st = .safe ∧ s1.unit.safe = 0 then (s1.enter .moored .resume).refresh else s1.refresh

/-- RESUME (R205, R367). -/
def execResume (ln : LineHdr) (s : State) : Result :=
  .next <| s.plainLine (.resume ln) ln (s.refuse ln .write .moorOrSafe [errWord s.resumeFails 18 "STOP"]) State.resumes

/-! ### SHUT and FREE (R216 to R220) -/

/-- A channel is held: its current crossing ends (R216, R275). -/
def State.shutChan (s : State) (c : Fin 40) : State :=
  if s.held c then s else (s.modUnit fun u => { u with shut := raise u.shut c.val }).endCrossing c .shut

/-- A channel's level 7 demand ends. -/
def State.endManual (s : State) (c : Fin 40) : State :=
  if h : c.val < 32 then s.modSol ⟨c.val, h⟩ SolChan.clearManual
  else s.modValve ⟨c.val - 32, by omega⟩ Valve.clearManual

/-- A channel is freed: in READY it goes to idle and needs a manual verb; an open scheduled level of a casting unit is cast in
the next watch (R219). -/
def State.freeChan (s : State) (c : Fin 40) : State :=
  if !s.held c then s
  else
    let s1 := s.modUnit fun u => { u with shut := drop u.shut c.val }
    if s.unit.st.casting then s1.modX c fun x => { x with castNext := decide (x.level ≠ .closed) }
    else if s.unit.st = .ready then s1.endManual c
    else s1

/-- SHUT (R216). -/
def execShut (ln : LineHdr) (chans : List ChanItem) (s : State) : Result :=
  .next <|
    s.plainLine (.shut ln chans) ln (s.refuse ln .write .notDock [s.listErr .all chans])
      fun t => ((t.listChans chans).foldl State.shutChan t).refresh

/-- FREE (R216, R219). -/
def execFree (ln : LineHdr) (chans : List ChanItem) (s : State) : Result :=
  .next <|
    s.plainLine (.free ln chans) ln (s.refuse ln .write .notDock [s.listErr .all chans])
      fun t => ((t.listChans chans).foldl State.freeChan t).refresh

end Sys2Proof.Machine
end

