-- ==== Sys2Proof/Machine/Settings.lean ====
section
/-! DEFINITION. GET, SET and what it writes at once, TUNE, COMMIT, ABORT and SAVE (R185 to R190, R89), with every rule that
refuses a SET by its value, by the unit's state or by what is in use. -/
namespace Sys2Proof.Machine

open Sys2Proof

/-! ### Values in force and staged -/

/-- The value a list of writes gives an address last. -/
def writeOf (ws : List (RegAddr × Word)) (a : Nat) : Option Word :=
  (ws.reverse.find? fun w => decide (w.1.toNat = a)).map (·.2)

/-- The value of a path with everything staged over the value in force, `new` being what a line would stage. -/
def State.merged (s : State) (new : List (RegAddr × Word)) (a : Nat) : Word :=
  match writeOf (s.manil.allStaged ++ new) a with
  | some v => v
  | none => s.reg a

/-- Whether a condition on a path holds of its value in force or of its merged value. -/
def State.either (s : State) (m : Nat → Word) (a : Nat) (f : Word → Bool) : Bool := f (s.reg a) || f (m a)

/-! ### GET (R11, R57, R102) -/

/-- The values of paths in the order given, with the snapshots their low words freeze (R14). -/
def State.getAll (s : State) (src : Source) : List Nat → State × List Tok
  | [] => (s, [])
  | a :: rest =>
    let (v, s1) := s.getPath src a
    let (s2, t) := s1.getAll src rest
    (s2, .word (pathName a) :: .num (shownValue a v) :: t)

/-- ERR 21 GONE naming the first path that cannot be read. -/
def State.goneErr (s : State) (ps : List PathArg) : Option Err :=
  ((ps.filterMap pathAddr).find? s.pathGone).map fun a => { code := 21, detail := [.word (pathName a)] }

/-- ERR 10 SYNTAX ARGS where a list of arguments has not its length. -/
def countErr (n lo hi : Nat) : Option Err := errWord (decide (n < lo) || decide (hi < n)) 10 "ARGS"

/-- GET (Table 7.7): up to four paths. -/
def execGet (ln : LineHdr) (paths : List PathArg) (s : State) : Result :=
  .next <|
    s.line (.get ln paths) ln
      (firstErr [countErr paths.length 1 4, unknownPath paths, s.refuse ln .read .alwaysReads [s.goneErr paths]])
      fun _ t =>
        let (t1, text) := t.getAll ln.src (paths.filterMap pathAddr)
        (t1, some (.ok text))

/-! ### Paths that SET writes only in MOORED -/

/-- Whether SET on a path is accepted only in MOORED (R55, R232, R249, R298, R333, R339, R368, R385). -/
def mooredOnly (a : Nat) : Bool :=
  let i := a % 256
  match a / 256 with
  | 0x03 => decide (i ≤ 4)
  | 0x0B => decide (i = 2) || decide (i = 3) || decide (i = 17)
  | 0x0D => decide (i % 8 = 6)
  | 0x0E => decide (i % 8 = 6)
  | 0x12 => decide (i % 16 = 0)
  | 0x15 => decide (i % 16 = 0)
  | 0x16 => decide (i % 32 ≤ 3)
  | 0x19 => decide (i < 32) && decide (i % 8 ≤ 2)
  | 0x1B => decide (0x10 ≤ i) && decide (i ≤ 0x15)
  | _ => false

/-! ### Rules of single blocks -/

/-- The role of an encoder port in a configuration word. -/
def roleOf (w : Word) : Nat := fld w 19 2

/-- Whether input `n` is the odd member of a quadrature pair by the words `m` gives (R224). -/
def oddQuad (m : Nat → Word) (n : Nat) : Bool := decide (n % 2 = 1) && bit (m (Reg.finCfg (n - 1))) 15

/-- Whether a source code of R230 names an input or a port that cannot be a source. -/
def badSource (m : Nat → Word) (k : Nat) : Bool :=
  if k = 0 ∨ k = 13 then false
  else if k ≤ 8 then oddQuad m (k - 1)
  else if k ≤ 12 then decide (roleOf (m (Reg.encCfg (k - 9))) ≠ 1)
  else true

/-- ECK periods of the nine rates, in ns (Table 9.4). -/
def eckPeriodNs : Nat → Nat
  | 0 => 10000
  | 1 => 5000
  | 2 => 4000
  | 3 => 2500
  | 4 => 2000
  | 5 => 1250
  | 6 => 1000
  | 7 => 667
  | _ => 500

/-- Whether an encoder period is shorter than one read (R227), in µs: a rate of 1500 kHz takes two thirds of a µs. -/
def shortPeriod (cfg per : Word) : Bool :=
  let bits := fld cfg 0 5 + 2
  let mono := 15 + 3 * fld cfg 15 4
  let room : Int := (10 * per.toNat : Int) - mono - 10
  if fld cfg 6 4 = 7 then decide (3 * room < 2 * bits) else decide (1000 * room < bits * eckPeriodNs (fld cfg 6 4))

/-- Whether solenoid channel `c` stands in a pair by the words `m` gives. -/
def pairedBy (m : Nat → Word) (c : Nat) : Bool := bit (m (Reg.bankCfg (c / 4))) (if c % 4 < 2 then 11 else 12)

/-- Whether a HOLD or PEAK lies in its range: that of a pair for the even member of one (R299, Table 11.1). -/
def currentOk (m : Nat → Word) (c : Nat) (peak : Bool) (v : Int) : Bool :=
  let k : Int := if pairedBy m c ∧ c % 2 = 0 then 2 else 1
  let lo : Int := if peak then 200 else 100
  let hi : Int := if peak then 3000 else 2000
  decide (k * lo ≤ v) && decide (v ≤ k * hi) && decide (v % 10 = 0)

/-- Whether a value lies outside what its register admits; HOLD and PEAK follow their pair (R7, R9, R299). -/
def outsideRange (m : Nat → Word) (a : Nat) (p : PathInfo) (v : Int) : Bool :=
  if a / 256 = 0x10 ∧ a % 8 = 1 then !currentOk m (a % 256 / 8) false v
  else if a / 256 = 0x10 ∧ a % 8 = 2 then !currentOk m (a % 256 / 8) true v
  else !p.admits v

/-- Bits of PWR.EN3 and PWR.EN4 that always read 1 (R54). -/
def State.alwaysOn (s : State) (a : Nat) : List Nat :=
  if a = Reg.pwrEn 4 then [6, 7, 13, 14]
  else if a = Reg.pwrEn 3 then (allPairs.filter fun p => decide (s.pairFunc p ≠ .generic)).map fun p => 8 + p.val
  else []

/-- The pairs of solenoid channels of a bank: the bit of BANKb.CFG and the even member. -/
def bankPairs (b : Nat) : List (Nat × Nat) := [(11, 4 * b), (12, 4 * b + 2)]

/-- A domain's enable bit is 0 in force or staged. -/
def State.maybeOff (s : State) (m : Nat → Word) (d : Nat) : Bool := s.either m (Reg.pwrEn (d / 24)) fun w => !bit w (d % 24)

/-- What a SET of BANKb.CFG is refused for with ERR 12: pairing a channel that is or may be off, unpairing one whose HOLD or
PEAK lies above the single range (R298). -/
def State.badPairing (s : State) (m : Nat → Word) (b : Nat) (v : Word) : Bool :=
  (bankPairs b).any fun x =>
    let was := bit (s.reg (Reg.bankCfg b)) x.1
    if bit v x.1 ∧ !was then s.maybeOff m x.2 || s.maybeOff m (x.2 + 1)
    else if !bit v x.1 ∧ was then
      s.either m (Reg.hold x.2) (fun w => decide (2000 < w.toNat)) || s.either m (Reg.peak x.2) (fun w => decide (3000 < w.toNat))
    else false

/-- What a SET that pairs is refused for with ERR 18: the odd member holds crossings or a fault latch (R298). -/
def State.busyPairing (s : State) (b : Nat) (v : Word) : Bool :=
  (bankPairs b).any fun x =>
    bit v x.1 && !bit (s.reg (Reg.bankCfg b)) x.1 &&
      allSol.any fun c => decide (c.val = x.2 + 1) &&
        (decide ((s.engine.chans[chS c]).manifest ≠ []) || decide ((s.engine.chans[chS c]).cur.isSome)
          || decide ((s.engine.chans[chS c]).decided ≠ []) || decide ((s.sol.chans[c]).fault ≠ 0))

/-- The rules that take a value together with others, in force and staged, and refuse it with ERR 12 RANGE (R54, R116, R227,
R230, R231, R245, R281, R298, R311, R315, R316, R325, R337, R340, R344, R357, R368). -/
def State.crossRule (s : State) (m : Nat → Word) (a : Nat) (v : Word) : Bool :=
  let i := a % 256
  match a / 256 with
  | 0x03 => (s.alwaysOn a).any fun k => !bit v k
  | 0x05 => decide (a = Reg.ckout) && decide (50000 * (fld v 6 12 + 1) < nominalKhz (fld v 0 6))
  | 0x08 => decide (a = Reg.strSrc) && (decide (v = 13) || badSource m v.toNat)
  | 0x0A =>
    if 32 ≤ i then false
    else
      let p := i / 8
      if i % 8 = 1 then shortPeriod (m (Reg.encCfg p)) v
      else decide (i % 8 = 4) && decide (2 ^ fld (m (Reg.encCfg p)) 0 5 ≤ v.toNat)
  | 0x0B =>
    decide (a = Reg.odoCfg) &&
      (badSource m (fld v 0 4) ||
        let y := fld v 11 3
        decide (1 ≤ y) && decide (y ≤ 4) && decide (roleOf (m (Reg.encCfg (y - 1))) ≠ 2))
  | 0x0E => decide (i % 8 = 0) && decide (1000 * (m (Reg.mvTmax (i / 8))).toNat < v.toNat)
  | 0x10 =>
    let c := i / 8
    (decide (i % 8 = 1) || decide (i % 8 = 2)) && decide ((m (Reg.peak c)).toNat < (m (Reg.hold c)).toNat)
  | 0x12 => decide (i % 16 = 0) && s.badPairing m (i / 16) v
  | 0x13 =>
    let k := i / 16
    let pmin := (m (Reg.pwmPmin k)).toNat
    let pmax := (m (Reg.pwmPmax k)).toNat
    match i % 16 with
    | 2 => decide (pmax < (m (Reg.pwmT k)).toNat)
    | 3 => decide (pmax < pmin)
    | 4 => decide (pmax < pmin) || decide (pmax < (m (Reg.pwmT k)).toNat) || decide (pmax ≤ (m (Reg.pwmPhase k)).toNat)
    | 5 => decide (pmax ≤ (m (Reg.pwmPhase k)).toNat)
    | _ => false
  | 0x15 =>
    if i % 16 = 0 then bit v 4 && decide (fld v 0 2 ≠ 3)
    else decide (i % 16 = 2) && decide (1000 * v.toNat < (m (Reg.lat (32 + i / 16))).toNat)
  | 0x16 =>
    let l := i / 32
    let per := 1000 * (m (Reg.loop l 1)).toNat
    let sph := (m (Reg.loop l 2)).toNat
    let wph := (m (Reg.loop l 3)).toNat
    match i % 32 with
    | 0 => let q := fld v 1 5
      decide (1 ≤ q) && decide (q ≤ 8) && oddQuad m (q - 1)
    | 1 => decide (per ≤ sph) || decide (wph < 20) || decide (per ≤ wph)
    | 2 => decide (per ≤ sph)
    | 3 => decide (wph < 20) || decide (per ≤ wph)
    | 4 => decide ((m (Reg.loop l 5)).toNat < v.toNat)
    | 5 => decide (v.toNat < (m (Reg.loop l 4)).toNat)
    | _ => false
  | 0x17 => decide (0x10 ≤ i) && decide (i % 8 = 0) && decide (fld v 10 4 = 7) && decide (fld v 6 4 = 8)
  | 0x19 => decide (i < 32) && decide (i % 8 = 0) && decide (funcOf v ≠ .generic) && !bit v 0
  | _ => false

/-- ERR 12 of one pair of a SET: its path's access, or its value (R7, R9, R185). -/
def State.pairRange (s : State) (m : Nat → Word) (a : Nat) (v : Int) : Option Err :=
  match pathInfo a with
  | none => none
  | some p =>
    if p.access = .ro ∨ p.access = .lv then some { code := 12, detail := [.word "ACCESS"] }
    else if outsideRange m a p v || s.crossRule m a (wordOf v) then some { code := 12, detail := [.word p.name] }
    else none

/-! ### Authorisation (R97, R368, R385) -/

/-- Whether a mask loses the bit of a channel it covers; `base` is its first channel, and an odd pair member's own bit is
ignored (R363). -/
def State.losesBit (s : State) (base : Nat) (old new : Word) : Bool :=
  allChans.any fun c => decide (base ≤ c.val) && decide (c.val < base + 24) && bit old (c.val - base) && !bit new (c.val - base)
    && match chanKind c with
      | .inl i => !s.isOdd i
      | .inr _ => true

/-- Whether a SET of a pair's registers takes its function away or narrows its scope, judged by what is in force (R368). -/
def State.narrows (s : State) (p : Fin 4) (k : Nat) (v : Word) : Bool :=
  match k with
  | 0 => decide (s.pairFunc p ≠ .generic) && decide (funcOf v ≠ s.pairFunc p)
  | 1 => hasMask && s.losesBit 0 (s.reg (Reg.sfpMask0 p)) v
  | _ => hasMask && s.losesBit 24 (s.reg (Reg.sfpMask1 p)) v
where
  hasMask : Bool := decide (s.pairFunc p = .fold) || decide (s.pairFunc p = .presence)

/-- Whether a pair of a SET needs an authorisation. -/
def State.needsAuth (s : State) (a : Nat) (v : Int) : Bool :=
  let i := a % 256
  let w := wordOf v
  match a / 256 with
  | 0x03 => decide (a = Reg.pwrEn 4) && s.rst.strap.getLsbD 2 && bit w 16
  | 0x19 => if h : i < 32 then decide (i % 8 ≤ 2) && s.narrows ⟨i / 8, by omega⟩ (i % 8) w else false
  | 0x1B => decide (0x10 ≤ i) && decide (i ≤ 0x15) && s.owner.key.isSome
  | _ => false

/-! ### What is in use (R231, R249, R298, R309, R331, R345, R368) -/

/-- The output a loop owns in a configuration word: its code, 0 for none (R345). -/
def loopOut (w : Word) : Nat := if bit w 0 then fld w 6 4 else 0

/-- Whether a loop owns output `k` in force. -/
def State.ownedBy (s : State) (k : Nat) : Bool := (List.finRange 8).any fun l => decide (loopOut (s.reg (Reg.loop l.val 0)) = k)

/-- Whether the configuration would give two loops one output (R345). -/
def sharedOutput (m : Nat → Word) (l : Nat) : Bool :=
  let k := loopOut (m (Reg.loop l 0))
  decide (k ≠ 0) && (List.range 8).any fun j => decide (j ≠ l) && decide (loopOut (m (Reg.loop j 0)) = k)

/-- The register that names a source which code `k` stands for, in force or staged: ODO.CFG, else STA.STR_SRC (R231). -/
def State.namedBy (s : State) (m : Nat → Word) (k : Nat) : Option String :=
  if s.either m Reg.odoCfg fun w => decide (fld w 0 4 = k) then some "ODO.CFG"
  else if s.either m Reg.strSrc fun w => decide (fld w 0 4 = k) then some "STA.STR_SRC"
  else none

/-- ERR 18 naming the register whose source a SET of FINn.CFG or ENCp.CFG would take away (R231). -/
def State.sourceErr (s : State) (m : Nat → Word) (a : Nat) (v : Word) : Option Err :=
  let i := a % 256
  let name : Option String :=
    if a / 256 = 0x09 ∧ i < 32 ∧ i % 4 = 0 ∧ i / 4 % 2 = 0 ∧ bit v 15 then s.namedBy m (i / 4 + 2)
    else if a / 256 = 0x0A ∧ i < 32 ∧ i % 8 = 0 ∧ roleOf v ≠ 1 then s.namedBy m (i / 8 + 9)
    else none
  name.map fun n => { code := 18, detail := [.word n] }

/-- The sum of the depths a configuration gives the channels (R249). -/
def depthsOf (m : Nat → Word) : Nat := ((List.range 40).map fun c => fld (m (Reg.xcfg c)) 4 11).sum

/-- The pair members a SET of PWR.EN0 or PWR.EN1 would part (R298). -/
def State.partsPair (s : State) (m : Nat → Word) : Bool :=
  let on (f : Nat → Word) (k : Nat) : Bool := bit (f (Reg.pwrEn (k / 24))) (k % 24)
  allSol.any fun c => s.leads c &&
    ((on m (c.val + 1) && !on m c.val && on s.reg c.val) || (on m c.val && !on m (c.val + 1) && on s.reg (c.val + 1)))

/-- Check 9 of one pair of a SET. -/
def State.pairBusy (s : State) (m : Nat → Word) (a : Nat) (v : Word) : Option Err :=
  let i := a % 256
  match a / 256 with
  | 0x03 => errWord ((decide (a = Reg.pwrEn 0) || decide (a = Reg.pwrEn 1)) && s.partsPair m) 18 "PAIR"
  | 0x09 => s.sourceErr m a v
  | 0x0A => s.sourceErr m a v
  | 0x0D => depthErr (i / 8)
  | 0x0E => depthErr (32 + i / 8)
  | 0x12 => errWord (decide (i % 16 = 0) && s.busyPairing (i / 16) v) 18 "PAIR"
  | 0x13 => errWord (decide (i % 16 = 1) && decide (8 ≤ i / 16) && s.ownedBy (i / 16 - 7)) 18 "LOOP"
  | 0x15 => errWord (decide (i % 16 = 5) && s.ownedBy (5 + i / 16)) 18 "LOOP"
  | 0x16 => errWord (decide (i % 32 = 0) && sharedOutput m (i / 32)) 18 "LOOP"
  | 0x19 =>
    if h : i < 32 ∧ i % 8 ≤ 2 then
      let q := s.safety.pairs[i / 8]
      errWord (q.latch || q.discrep) 18 "STOP"
    else none
  | _ => none
where
  depthErr (c : Nat) : Option Err :=
    if a % 8 ≠ 6 then none
    else
      firstErr
        [errWord (decide (1536 < depthsOf m)) 17 "STORE",
         errIf (decide (fld v 4 11 < ((s.engine.chans.toList.getD c {}).manifest).length)) 18 [.word ("CH" ++ twoDigits c)]]

/-! ### What SET writes (R185) -/

/-- A write joins a list of staged writes; a later one of the same path replaces it. -/
def putWrite (ws : List (RegAddr × Word)) (a : Nat) (v : Word) : List (RegAddr × Word) :=
  ws.filter (fun w => decide (w.1.toNat ≠ a)) ++ [(BitVec.ofNat 16 a, v)]

/-- A write is staged: for the next tide after the line completed where that one pends already (R144), else with what waits. -/
def Manil.stage (m : Manil) (tides : Nat) (a : Nat) (v : Word) : Manil :=
  if m.tides.any fun t => decide (tides ≤ t.seq) then
    let k := ((m.tides.filter fun t => decide (tides ≤ t.seq)).map fun t => t.seq).foldl Nat.min m.tideCount
    { m with tides := m.tides.map fun (t : PendingTide) => if t.seq = k then { t with writes := putWrite t.writes a v } else t }
  else { m with staged := putWrite m.staged a v }

/-- PWM.DIS (R319). -/
def State.writeDis (s : State) (v : Word) : State := (s.modPwm fun p => { p with dis := v.setWidth 12 }).refresh

/-- PWMss.DUTY of a free slice: its shadow, loaded at the next period start (R309, R311). -/
def State.writeDuty (s : State) (k : Fin 12) (v : Word) : State := s.modSlice k fun w => { w with shadow := v }

/-- MVv.PTGT: in POSITION mode it acts at once (R331). -/
def State.writePtgt (s : State) (v : Fin 8) (w : Word) : State := (s.modValve v fun y => { y with ptgt := w.toNat }).positionAct v

/-- XNG.VSEL of a source (R254). -/
def State.writeVsel (s : State) (src : Source) (v : Word) : State :=
  match src with
  | .chain => { s with engine := { s.engine with vselChain := v } }
  | .console => { s with engine := { s.engine with vselConsole := v } }

/-- The six parts of a key, once all are written. -/
def wholeKey (k : Vector (Option Word) 6) : Option (Vector Word 6) :=
  if k.all (·.isSome) then some (k.map (·.getD 0)) else none

/-- OWN.KEYk (R385): the sixth write stores the key, ends every authorisation held and is recorded. -/
def State.writeKey (s : State) (src : Source) (k : Fin 6) (v : Word) : State :=
  let parts := s.owner.partialKey.set k.val (some v) k.isLt
  match wholeKey parts with
  | none => { s with owner := { s.owner with partialKey := parts } }
  | some key =>
    ({ s with owner :=
        { s.owner with
          key := some key, partialKey := Vector.replicate 6 none
          chain := { s.owner.chain with grant := none }, console := { s.owner.console with grant := none } } } : State).record
      0x2C7 src.code 0

/-- A pair on an RW, WO or W1C path takes effect (R10, R167, R185). -/
def State.writeNow (s : State) (src : Source) (a : Nat) (v : Word) : State :=
  let i := a % 256
  if isEclr a then s.clearCounters a v
  else match a / 256 with
  | 0x0C => if a = Reg.vsel then s.writeVsel src v else s.clearFlags a v
  | 0x13 => s.writeDuty ⟨i / 16 % 12, by omega⟩ v
  | 0x14 => if a = Reg.pwmDis then s.writeDis v else s.clearFlags a v
  | 0x15 => if i % 16 = 5 then s.writePtgt ⟨i / 16 % 8, by omega⟩ v else s.clearFlags a v
  | 0x1B => s.writeKey src ⟨(i - 0x10) % 6, by omega⟩ v
  | _ => s.clearFlags a v

/-- One pair of a SET (R185). -/
def State.writePair (s : State) (src : Source) (tides : Nat) (a : Nat) (v : Word) : State :=
  match pathInfo a with
  | some p => if p.access = .st then s.modManil fun m => m.stage tides a v else s.writeNow src a v
  | none => s

/-- Whether a path is staged. -/
def isStaged (a : Nat) : Bool :=
  match pathInfo a with
  | some p => decide (p.access = .st)
  | none => false

/-- The pairs of a SET whose path exists. -/
def knownPairs (pairs : List (PathArg × LineNum)) : List (Nat × Int) :=
  pairs.filterMap fun x => (pathAddr x.1).map fun a => (a, x.2.val)

/-- ERR 10 UNIT of the pairs of a SET (R172). -/
def pairsUnit (pairs : List (PathArg × LineNum)) : Option Err :=
  pairs.findSome? fun x => match (pathAddr x.1).bind pathInfo with
    | some p => unitErr x.2 (pathSuffix p)
    | none => none

/-- What a SET would stage. -/
def stagedBy (ps : List (Nat × Int)) : List (RegAddr × Word) :=
  (ps.filter fun x => isStaged x.1).map fun x => (BitVec.ofNat 16 x.1, wordOf x.2)

/-- The refusal of a SET (R183 to R186), `tides` those that had arrived before its line completed. -/
def State.setErr (s : State) (ln : LineHdr) (pairs : List (PathArg × LineNum)) (tides : Nat) : Option Err :=
  let ps := knownPairs pairs
  let m := s.merged (stagedBy ps)
  let after := ps.foldl (fun (t : Manil) x => if isStaged x.1 then t.stage tides x.1 (wordOf x.2) else t) s.manil
  let count := after.staged.length + (after.tides.map fun t => t.writes.length).sum
  firstErr
    [countErr pairs.length 1 4, pairsUnit pairs, unknownPath (pairs.map (·.1)),
     s.refuse ln .write .settings
      [if ps.any (fun x => mooredOnly x.1) && decide (s.judged ≠ .moored) then some { code := 13, detail := [.word s.judged.word] }
        else none,
       s.authErr ln.src (ps.any fun x => s.needsAuth x.1 x.2),
       ps.findSome? fun x => s.pairRange m x.1 x.2,
       ps.findSome? fun x => s.pairBusy m x.1 (wordOf x.2),
       errWord (decide (256 < count)) 17 "STAGED"]]

/-- A SET line executes (R185). -/
def State.runSet (s : State) (i : Instr) (ln : LineHdr) (pairs : List (PathArg × LineNum)) : State :=
  s.line i ln (s.setErr ln pairs (s.queued i ln.src).tides) fun q t =>
    ((knownPairs pairs).foldl (fun u x => u.writePair ln.src q.tides x.1 (wordOf x.2)) t, some (.ok []))

/-- A path argument by its address. -/
def regArg (a : Nat) : PathArg := .reg (BitVec.ofNat 16 a)

/-- SET (R185, R186). -/
def execSet (ln : LineHdr) (pairs : List (PathArg × LineNum)) (s : State) : Result := .next (s.runSet (.set ln pairs) ln pairs)

/-- PWM_DIS_WRITE (R319): a SET of PWM.DIS. -/
def execPwmDisWrite (ln : LineHdr) (value : LineNum) (s : State) : Result :=
  .next (s.runSet (.pwmDisWrite ln value) ln [(regArg Reg.pwmDis, value)])

/-- PWM_DUTY_WRITE (R309, R311): a SET of PWMss.DUTY. -/
def execPwmDutyWrite (ln : LineHdr) (k : Fin 12) (value : LineNum) (s : State) : Result :=
  .next (s.runSet (.pwmDutyWrite ln k value) ln [(regArg (Reg.pwmDuty k), value)])

/-- PTGT_WRITE (R331): a SET of MVv.PTGT. -/
def execPtgtWrite (ln : LineHdr) (v : Fin 8) (value : LineNum) (s : State) : Result :=
  .next (s.runSet (.ptgtWrite ln v value) ln [(regArg (Reg.mvPtgt v), value)])

/-- VSEL_WRITE (R254): a SET of XNG.VSEL. -/
def execVselWrite (ln : LineHdr) (value : LineNum) (s : State) : Result :=
  .next (s.runSet (.vselWrite ln value) ln [(regArg Reg.vsel, value)])

/-- OWNER_KEY_WRITE (R385): a SET of OWN.KEYk. -/
def execOwnerKeyWrite (ln : LineHdr) (k : Fin 6) (value : LineNum) (s : State) : Result :=
  .next (s.runSet (.ownerKeyWrite ln k value) ln [(regArg (0x1B10 + k.val), value)])

/-- COUNTER_CLEAR (R167): a SET of an ECLR path. -/
def execCounterClear (ln : LineHdr) (path : PathArg) (value : LineNum) (s : State) : Result :=
  .next (s.runSet (.counterClear ln path value) ln [(path, value)])

/-! ### TUNE, COMMIT, ABORT and SAVE -/

/-- The refusal of a TUNE by access or value (R189). -/
def tuneErr (a : Nat) (v : Int) : Option Err :=
  match pathInfo a with
  | none => none
  | some p =>
    if p.access ≠ .lv then some { code := 12, detail := [.word "ACCESS"] }
    else errWord (!p.admits v) 12 p.name

/-- TUNE (R189, R335): one value on one LV path, taken by the loop at its next sample. -/
def execTune (ln : LineHdr) (path : PathArg) (value : LineNum) (s : State) : Result :=
  .next <|
    s.plainLine (.tune ln path value) ln
      (firstErr [pairsUnit [(path, value)], unknownPath [path],
        s.refuse ln .write .notDock [(pathAddr path).bind fun a => tuneErr a value.val]])
      fun t => match pathAddr path with
        | some a => t.setReg a (wordOf value.val)
        | none => t

/-- COMMIT (R187): everything staged applies now; a pending tide keeps its target with nothing to apply. -/
def execCommit (ln : LineHdr) (s : State) : Result :=
  .next <| s.plainLine (.commit ln) ln (s.refuse ln .write .settings) fun t => t.unstage.applyWrites t.manil.allStaged

/-- ABORT (R188). -/
def execAbort (ln : LineHdr) (s : State) : Result :=
  .next <| s.plainLine (.abort ln) ln (s.refuse ln .write .settings) State.unstage

/-- The configuration in force: every ST and LV path but CON.BAUD whose value is not the one after reset (R190). -/
def State.configuration (s : State) : List (RegAddr × Word) :=
  (s.regs.filter fun x => decide (x.1 ≠ Reg.conBaud)).map fun x => (BitVec.ofNat 16 x.1, x.2)

/-- SAVE (R190). -/
def execSave (ln : LineHdr) (s : State) : Result :=
  .next <| s.plainLine (.save ln) ln (s.refuse ln .write .moored) fun t => { t with nvm := { t.nvm with saved := t.configuration } }

/-- SAVE_REACH (R89): the table of RST.REACH_NEW in force is fused once; it takes effect from the next reset. -/
def execSaveReach (ln : LineHdr) (s : State) : Result :=
  .next <|
    s.plainLine (.saveReach ln) ln
      (s.refuse ln .write .moored [errIf s.rst.fused.isSome 23, s.authErr ln.src])
      fun t =>
        (t.modRst fun r => { r with fused := some ((t.reg Reg.reachNew).setWidth 22) }).record 0x009 63 (t.reg Reg.reachNew)

end Sys2Proof.Machine
end

