-- ==== Sys2Proof/Machine/Query.lean ====
section
/-! DEFINITION. The verbs that report, and those of the chain and the clock: ID, STATE, TIME, SPEED, MUSTER, TRACE, LOG, CLEAR
LOG, HELM, ENUM, ADOPT, LOCK and `?` (chapters 6, 7, 9, 13, 15 and 17). -/
namespace Sys2Proof.Machine

open Sys2Proof

/-! ### ID and STATE -/

/-- A silicon stepping as it is written: 0x11 is A1. -/
def steppingText (w : Word) : String := String.ofList [Char.ofNat (64 + w.toNat / 16 % 16)] ++ toString (w.toNat % 16)

/-- The versions of the running purser and pilot; the dock loader is shown as DOCK, with no pilot. -/
def Boot.versionToks (b : Boot) : List Tok :=
  match b.running with
  | [] => [.word "DOCK", .word "-"]
  | l => l.map fun k => .word (versionText (b.slot k).version)

/-- ID (Table 7.7). -/
def execId (ln : LineHdr) (s : State) : Result :=
  .next <|
    s.tellLine (.id ln) ln (s.refuse ln .read .alwaysReads) id fun t =>
      [.word "ID", .word "OCV3208", .word (steppingText t.rst.stepping), .serial t.chain.serial] ++ t.boot.versionToks

/-- The words that apply, of words with their conditions. -/
def wordsOf (l : List (Bool × String)) : List Tok := (l.filter (·.1)).map fun x => .word x.2

/-- STATE (Table 7.7, R201, R205). -/
def execState (ln : LineHdr) (s : State) : Result :=
  .next <|
    s.tellLine (.state ln) ln (s.refuse ln .read .alwaysReads) id fun t =>
      .word t.judged.word :: wordsOf
        [(t.unit.kill, "KILL"), (t.stopFlag, "STOP"), (t.anyStale, "STALE"), (t.boot.untested, "UNTESTED"),
         (decide (t.clocks.mode = .holdover), "HOLDOVER")]

/-! ### TIME and SPEED -/

/-- The letter of a time mode (R195, R393). -/
def Clocks.letter (c : Clocks) : String :=
  match c.mode with
  | .unset => "U"
  | .track => if c.aligned then "A" else "T"
  | .coast => "C"
  | .holdover => "H"

/-- The reply to TIME (R393). -/
def State.timeToks (s : State) : List Tok :=
  [.word "TIME", .num (tlo s.time).toNat, .num (thi s.time).toNat, .word s.clocks.letter, .word s.cal.text] ++
    wordsOf [(!s.cal.set, "UNSET"), (s.cal.ended, "END"), (s.cal.drift, "DRIFT")]

/-- TIME (R393). -/
def execTime (ln : LineHdr) (s : State) : Result :=
  .next <| s.tellLine (.time ln) ln (s.refuse ln .read .always) id State.timeToks

/-- The calendar takes a date (R392). -/
def Calendar.take (c : Calendar) (d : DateArg) : Calendar :=
  { c with secs := BitVec.ofNat 17 (dateSecs d), days := BitVec.ofNat 18 (dateDays d), sub := 0, subFrac := 0, set := true, ended := false
           drift := false }

/-- TIME_SET (R392, R393). -/
def execTimeSet (ln : LineHdr) (date : DateArg) (s : State) : Result :=
  .next <|
    s.tellLine (.timeSet ln date) ln (s.refuse ln .write .always [errIf (!DateOk date) 19])
      (fun t => (t.modCal (·.take date)).record 0x2C9 ln.src.code (w24 (dateDays date)) (some (w24 (dateSecs date))))
      State.timeToks

/-- SPEED (R244). -/
def execSpeed (ln : LineHdr) (v w : LineNum) (s : State) : Result :=
  .next <|
    s.plainLine (.speed ln v w) ln
      (firstErr [unitErr v, unitErr w,
        s.refuse ln .write .settings [rangeErr v (-25000) 25000 "V", rangeErr w (-3000) 3000 "W"]])
      fun t => t.takeSpeed v.val w.val

/-! ### MUSTER (R194 to R197) -/

/-- ERR 10 SYNTAX ADDRESS for a chain verb from the console (R191). -/
def chainOnly (ln : LineHdr) : Option Err := errWord (decide (ln.src = .console)) 10 "ADDRESS"

/-- A sample time as a chain time. -/
def musterTime (n : LineNum) : ChainTime := BitVec.ofInt 48 n.val

/-- ERR 12 RANGE where T does not lie 1 ms to 10 s ahead (R194). -/
def State.musterRange (s : State) (t : LineNum) : Option Err :=
  let ahead := (musterTime t - s.time).toNat
  errWord (decide (t.val < 0) || decide (ahead < 1000) || decide (10000000 < ahead)) 12 "T"

/-- Four slots hold samples still pending (R194). -/
def Manil.mustersFull (m : Manil) : Bool := decide (4 ≤ m.musters.length) && m.musters.all fun x => x.sample.isNone

/-- A slot for a new muster: a free one, or that of the oldest latched sample (R194). Slots stand in the order in which they
latched. -/
def freeSlot (l : List MusterSlot) : List MusterSlot :=
  if l.length < 4 then l else l.eraseP fun x => x.sample.isSome

/-- MUSTER (R194): the reply follows at T. -/
def execMuster (ln : LineHdr) (t : LineNum) (paths : List PathArg) (s : State) : Result :=
  .next <|
    s.line (.muster ln t paths) ln
      (firstErr [chainOnly ln, countErr paths.length 0 4, unitErr t, unknownPath paths,
        s.refuse ln .write .always
          [s.musterRange t, errWord (decide (s.clocks.mode = .unset)) 16 "TIME",
           errWord (s.manil.musters.any fun x => decide (x.t = musterTime t)) 18 "MUSTER",
           errWord s.manil.mustersFull 17 "MUSTER"]])
      fun q u =>
        (u.modManil fun m =>
          { m with
            musters := freeSlot m.musters ++
              [{ t := musterTime t, paths := (paths.filterMap pathAddr).map (BitVec.ofNat 16), sample := none }]
            held := m.held ++ [.muster (musterTime t) q.turn] }, none)

/-- The values of named paths at the sample, or ERR 21 GONE naming the first that cannot be read. -/
def State.sampleValues (s : State) : List Nat → List Tok ⊕ Err
  | [] => .inl []
  | a :: rest =>
    if s.pathGone a then .inr { code := 21, detail := [.word (pathName a)] }
    else match s.sampleValues rest with
      | .inl l => .inl (.num (shownValue a (s.readPath .chain a)) :: l)
      | .inr e => .inr e

/-- What a muster latches (R195); in DRYDOCK state and identity only (R102); while an ANCHOR waits, as in MOORED (R67). -/
def State.musterBody (s : State) (m : MusterSlot) : ReplyBody :=
  let head : List Tok := [.word "MUSTER", .num m.t.toNat, .word s.clocks.letter, .word s.judged.word]
  if s.judged = .drydock then .ok head
  else match s.sampleValues (m.paths.map (·.toNat)) with
    | .inl values =>
      .ok (head ++ [.num s.openCast, .num s.openLanded, .num (mmOf s.motion.pos).toNat] ++ values)
    | .inr e => .err e

/-- The reply a MUSTER line waited for is known. -/
def HeldReply.settle (t : ChainTime) (b : ReplyBody) : HeldReply → HeldReply
  | .muster u turn => if u = t then .reply b false turn else .muster u turn
  | x => x

/-- A muster latches (R195): its slot becomes the newest latched one, and its reply leaves in its turn (R181). -/
def State.latchMuster (s : State) (m : MusterSlot) : State :=
  if !s.manil.musters.contains m then s
  else
    let b := s.musterBody m
    let s1 := s.modManil fun x =>
      { x with musters := x.musters.erase m ++ [{ m with sample := some b }]
               held := x.held.map (HeldReply.settle m.t b) }
    s1.sendHeld s1.manil.held

/-- The pending musters whose T chain time has reached. -/
def State.mustersDue (s : State) : List MusterSlot :=
  s.manil.musters.filter fun m => m.sample.isNone && s.reached m.t

/-- MUSTER_SAMPLE (R195). -/
def execMusterSample (s : State) : Result := .next <| if !s.live then s else s.mustersDue.foldl State.latchMuster s

/-- Whether a latched sample is no longer kept (R196): chain time has passed T + 60 s. -/
def State.musterOver (s : State) (m : MusterSlot) : Bool :=
  m.sample.isSome && s.reached (after m.t 60000001)

/-- MUSTER_EXPIRY (R196). -/
def execMusterExpiry (s : State) : Result :=
  .next <| s.modManil fun m => { m with musters := m.musters.filter fun x => !s.musterOver x }

/-- The sample a MUSTER RECALL asks for. -/
def State.sampleAt (s : State) (t : LineNum) : Option ReplyBody :=
  if t.val < 0 then none
  else (s.manil.musters.find? fun x => decide (x.t = musterTime t) && !s.musterOver x).bind (·.sample)

/-- MUSTER_RECALL (R196). -/
def execMusterRecall (ln : LineHdr) (t : LineNum) (s : State) : Result :=
  .next <|
    s.line (.musterRecall ln t) ln
      (firstErr [chainOnly ln, unitErr t,
        s.refuse ln .write .always
          [errWord (decide (t.val < 0)) 12 "T", errIf (s.sampleAt t).isNone 21 [.num t.val]]])
      fun _ u => (u, u.sampleAt t)

/-! ### TRACE (Table 13.8, R356, R358, R359) -/

/-- A bank argument. -/
def bankNum (b : LineNum) : Fin 4 := if h : b.val.toNat < 4 then ⟨b.val.toNat, h⟩ else 0

/-- The refusal of a TRACE line (R358). -/
def State.traceErr (s : State) (ln : LineHdr) (b : LineNum) (values more : List (Option Err) := []) : Option Err :=
  firstErr [unitErr b,
    s.refuse ln .write .notDock
      ([errIf (decide (b.val < 0) || decide (3 < b.val)) 12 [.num (shownNum b)]] ++ values ++
       [errWord (!s.domainOn (93 + (bankNum b).val)) 21 ("TRC" ++ toString (bankNum b).val)] ++ more)]

/-- The name of a bank's state. -/
def TraceState.word : TraceState → String
  | .idle => "IDLE"
  | .fill => "FILL"
  | .wait => "WAIT"
  | .post => "POST"
  | .done => "DONE"
  | .stopped => "STOPPED"

/-- TRACE_STATUS. -/
def execTraceStatus (ln : LineHdr) (b : LineNum) (s : State) : Result :=
  .next <|
    s.tellLine (.traceStatus ln b) ln (s.traceErr ln b) id fun t =>
      let x := t.pilot.traces[bankNum b]
      [.word "TRACE", .num (bankNum b).val, .word x.st.word, .num x.entries.length, .num x.tidx]

/-- A bank armed (R356): cleared, with its ST values latched; with PRE 0 it holds PRE entries at
once, and a bank of TSRC 8 captures first TRCb.INT after the ARM (R355). -/
def State.armed (s : State) (b : Fin 4) : Trace :=
  let pre := s.regN (Reg.trc b 3)
  { st := if pre = 0 then .wait else .fill, cfg := s.reg (Reg.trc b 0), interval := s.regN (Reg.trc b 1)
    level := s.reg (Reg.trc b 2), pre := pre, armedAt := s.time, lastAt := some s.time }

/-- TRACE_ARM (R356). -/
def execTraceArm (ln : LineHdr) (b : LineNum) (s : State) : Result :=
  .next <| s.plainLine (.traceArm ln b) ln (s.traceErr ln b) fun t => t.modTrace (bankNum b) fun _ => t.armed (bankNum b)

/-- TRACE_FORCE (R356). -/
def execTraceForce (ln : LineHdr) (b : LineNum) (s : State) : Result :=
  .next <|
    s.plainLine (.traceForce ln b) ln (s.traceErr ln b) fun t => t.modTrace (bankNum b) fun x =>
      if x.st = .fill ∨ x.st = .wait then { x with forced := true } else x

/-- TRACE_STOP (Table 13.8). -/
def execTraceStop (ln : LineHdr) (b : LineNum) (s : State) : Result :=
  .next <|
    s.plainLine (.traceStop ln b) ln (s.traceErr ln b) fun t => t.modTrace (bankNum b) fun x =>
      if x.st.captures then { x with st := .stopped } else x

/-- TRACE_DUMP (R359): at most 12 entries. -/
def execTraceDump (ln : LineHdr) (b i : LineNum) (s : State) : Result :=
  .next <|
    let x := s.pilot.traces[bankNum b]
    s.tellLine (.traceDump ln b i) ln
      (firstErr [unitErr b, unitErr i,
        s.traceErr ln b [errIf (decide (i.val < 0)) 12 [.num (shownNum i)]]
          [errWord x.st.captures 18 "TRACE", errIf (decide (x.entries.length ≤ natOf i)) 21 [.num i.val]]])
      id
      fun t => [.word "TRACE", .num (bankNum b).val, .word "DUMP", .num i.val,
        .block (((t.pilot.traces[bankNum b]).entries.drop (natOf i)).take 12)]

/-! ### LOG (R383, R384) -/

/-- A record's data as a reply gives it: signed where Table 15.4 gives it signed. -/
def Record.shown (x : Record) : Int :=
  if x.code = 0x045 ∨ x.code = 0x1C1 ∨ x.code = 0x1C2 then x.data.toInt else x.data.toNat

/-- A record in a reply. -/
def Record.toks (x : Record) : List Tok :=
  [.num x.seq.toNat, .num x.optime.toNat, .num x.pcycle.toNat, .num x.code.toNat, .num x.source.toNat, .num x.rep.toNat,
    .num x.shown]

/-- The record held under a sequence number. -/
def Recorder.recordOf (r : Recorder) (seq : Word) : Option Record := r.held.find? fun x => decide (x.seq = seq)

/-- The record a LOG line names. -/
def Recorder.named (r : Recorder) (n : LineNum) : Option Record :=
  if n.val < 0 ∨ 0xFFFFFF < n.val then none else r.recordOf (wordOf n.val)

/-- The records a LOG line reads: the one named, and the next where two are asked for and it is held. -/
def Recorder.logToks (r : Recorder) (seq count : Option LineNum) : List Tok :=
  match seq with
  | none => [.num r.oldest.toNat, .num r.newest.toNat, .num r.held.length, .num r.optime.toNat, .num r.pcycle.toNat]
  | some n =>
    let second := match count with
      | some k => if k.val = 2 then r.recordOf (wordOf n.val + 1) else none
      | none => none
    ((r.named n).map Record.toks).getD [] ++ (second.map Record.toks).getD []

/-- LOG (R383). -/
def execLog (ln : LineHdr) (seq count : Option LineNum) (s : State) : Result :=
  .next <|
    s.tellLine (.log ln seq count) ln
      (firstErr [seq.bind unitErr, count.bind unitErr, errWord (seq.isNone && count.isSome) 10 "ARGS",
        s.refuse ln .read .alwaysReads
          [seq.bind fun n => errIf (decide (n.val < 0)) 12 [.num (shownNum n)],
           count.bind fun k => errIf (decide (k.val < 1) || decide (2 < k.val) ||
             (decide (k.val = 2) && decide (s.chain.addr = 0))) 12 [.num (shownNum k)],
           seq.bind fun n => errIf (s.recorder.named n).isNone 21 [.num n.val]]])
      id fun t => .word "LOG" :: t.recorder.logToks seq count

/-- The log is cleared (R390): every held record goes, and a LOG CLEARED record takes the next number and is committed. -/
def State.clearLog (s : State) (src : Source) : State :=
  let n := s.recorder.held.length
  let s1 := s.modRec fun r => { r with nvm := [], queue := [], last := none, repeatDue := false }
  let s2 := (s1.record 0x2C1 src.code (w24 n)).modRec fun r => { r.commitAll with last := none, evt := raise r.evt 4 }
  s2.notice [.word "LOG", .word "CLEARED"]

/-- CLEAR_LOG (R390). -/
def execClearLog (ln : LineHdr) (s : State) : Result :=
  .next <| s.plainLine (.clearLog ln) ln (s.refuse ln .write .moorOrSafe [s.authErr ln.src]) (·.clearLog ln.src)

/-! ### HELM, ENUM, ADOPT and LOCK -/

/-- HELM (Table 7.7): the upstream end, FARHELM and the pending request. -/
def execHelm (ln : LineHdr) (s : State) : Result :=
  .next <|
    s.tellLine (.helm ln) ln (s.refuse ln .read .always) id fun t =>
      [.word "HELM", .word t.chain.upPort.word, .num (b2n t.chain.farHelm),
       .word (match t.chain.helmReq with
        | some r => r.target.word
        | none => "NONE")]

/-- ENUM (Table 7.7): address, pinned address, CHN.DOWNHOP, CLK.HOP_B and CLK.HOP_S as their registers show them. -/
def execEnum (ln : LineHdr) (s : State) : Result :=
  .next <|
    s.tellLine (.enum ln) ln (s.refuse ln .read .always) id fun t =>
      [.word "ENUM", .num t.chain.addr.toNat, .num (t.regN Reg.chnPin), .num (t.readChn 5).toNat, .num (t.readClk 4).toNat,
       .num (t.readClk 5).toNat]

/-- ADOPT (R166): only under `@0` on the chain; a unit with another serial number ignores it and sends no reply.
The adopted unit has no valid hop delay. -/
def execAdopt (ln : LineHdr) (serial : ChainTime) (n : LineNum) (s : State) : Result :=
  .next <|
    s.line (.adopt ln serial n) ln
      (firstErr [errWord (decide (ln.src = .console) || decide (ln.addr ≠ .zero)) 10 "ADDRESS", unitErr n,
        if s.chain.serial = serial then
          s.refuse ln .write .always [errIf (decide (n.val < 1) || decide (128 < n.val)) 12 [.num (shownNum n)]]
        else none])
      fun _ t =>
        if t.chain.serial = serial then
          ((t.modChain fun c => { c with addr := BitVec.ofNat 8 (natOf n), hopBValid := false, hopSValid := false }).chnEvt 11,
            some (.ok []))
        else (t, none)

/-- The refusal of a LOCK line: it is accepted only from the chain (R192). -/
def State.lockErr (s : State) (ln : LineHdr) : Option Err :=
  firstErr [s.ownerErr ln.src .write, errWord (decide (ln.src = .console)) 14 "LOCK", s.refuse ln .write .notDock]

/-- LOCK_CONSOLE (R192). -/
def execLockConsole (ln : LineHdr) (s : State) : Result :=
  .next <| s.plainLine (.lockConsole ln) ln (s.lockErr ln) fun t => t.modManil fun m => { m with conLock := true }

/-- LOCK_NONE (R192). -/
def execLockNone (ln : LineHdr) (s : State) : Result :=
  .next <| s.plainLine (.lockNone ln) ln (s.lockErr ln) fun t => t.modManil fun m => { m with conLock := false }

/-! ### The verb `?` (Table 7.7, R416) -/

/-- The 38 verbs with their forms (Tables 4.8, 7.7 and 13.8). -/
def verbForms : List (String × String) :=
  [("ID", ""), ("STATE", ""), ("GET", "path [path ...]"), ("SET", "path value [path value ...]"), ("TUNE", "path value"),
   ("COMMIT", ""), ("ABORT", ""), ("SAVE", "[REACH]"),
   ("IMAGE", "[LIST|OPEN slot size|DATA offset hex|CLOSE|CANCEL|RETIRE slot|ACCEPT UNTESTED]"), ("RESET", "[n]"),
   ("ANCHOR", ""), ("MOOR", ""), ("ARM", ""), ("GO", ""), ("HALT", ""), ("KILL", ""), ("RESUME", ""), ("OPEN", "chans"),
   ("CLOSE", "chans"), ("PULSE", "chans f d [p]")] ++
  [("HOME", "chans [OPEN|CLOSED]"), ("DRIVE", "ch duty"), ("CROSS", "ch pos action id [duty [flags]]"),
   ("RECALL", "ch id|ch ALL|ALL"), ("SHUT", "chans"), ("FREE", "chans"), ("SPEED", "v w"), ("TIME", "[date]"),
   ("MUSTER", "T [path ...]|RECALL T"), ("TRACE", "b [ARM|FORCE|STOP|DUMP i]"), ("LOG", "[seq [count]]"),
   ("AUTH", "[hhhh hhhh hhhh]"), ("CLEAR", "LOG|FLTg|chans"), ("HELM", ""), ("ENUM", ""),
   ("ADOPT", "serial=#hhhhhhhhhhhh as n"), ("LOCK", "CONSOLE|NONE"), ("?", "[verb|path]")]

/-- The 38 verbs. -/
def verbs : List String := verbForms.map (·.1)

/-- The words that fit in a number of characters, each with a space before it. -/
def fitWords : Nat → List String → List String
  | _, [] => []
  | room, w :: rest => if w.length + 1 ≤ room then w :: fitWords (room - w.length - 1) rest else []

/-- The characters a reply of 120 leaves for a list of words, beside `=n OK`, ` ?` and the checksum, for an n of three digits; at address 0
the serial number stands in the reply too (R168, R180). -/
def Chain.listRoom (c : Chain) : Nat := if c.addr = 0 then 95 else 107

/-- QUERY_LIST: the verbs, as many of them in the order of Table 7.7 as a reply of 120 characters holds beside its address and its checksum
(R168; DESIGN CHOICE, log 15). -/
def execQueryList (ln : LineHdr) (s : State) : Result :=
  .next <|
    s.tellLine (.queryList ln) ln (s.refuse ln .read .notDock) id fun t => .word "?" :: (fitWords t.chain.listRoom verbs).map .word

/-- A verb's form. -/
def formToks (verb : String) : List Tok :=
  match verbForms.find? fun x => decide (x.1 = verb) with
  | some (v, "") => [.word v]
  | some (v, f) => [.word v, .word f]
  | none => []

/-- QUERY_VERB: a verb's form; a word that is no verb is unknown. -/
def execQueryVerb (ln : LineHdr) (verb : String) (s : State) : Result :=
  .next <|
    s.tellLine (.queryVerb ln verb) ln
      (firstErr [errWord (!verbs.contains verb) 11 verb, s.refuse ln .read .notDock])
      id fun _ => .word "?" :: formToks verb

/-- The access code of a path as Table 0.3 writes it. -/
def Access.word : Access → String
  | .rw => "RW"
  | .ro => "RO"
  | .w1c => "W1C"
  | .wo => "WO"
  | .st => "ST"
  | .lv => "LV"

/-- The range of a path as `?` reports it: HOLD and PEAK of a leading channel have that of their pair (R299). -/
def State.shownRange (s : State) (a : Nat) (lo hi : Int) : Int × Int :=
  let k := a % 256 % 8
  if h : a / 256 = 0x10 then
    if (k = 1 ∨ k = 2) ∧ s.leads ⟨a % 256 / 8, by omega⟩ then (2 * lo, 2 * hi) else (lo, hi)
  else (lo, hi)

/-- What a path holds, at the end of a `?` reply. -/
def State.holdsToks (s : State) (a : Nat) : Holds → List Tok
  | .quantity unit lo hi step =>
    let r := s.shownRange a lo hi
    [.word unit, .num r.1, .num r.2, .num step]
  | .fields _ => [.word "FIELDS"]

/-- The reply to `? path` (R416). -/
def State.describe (s : State) (a : Nat) : List Tok :=
  match pathInfo a with
  | none => []
  | some p =>
    [.word p.name, .word (pathText (.reg (BitVec.ofNat 16 a))), .word (toString (p.width - 1) ++ ":0"), .word p.access.word,
     match p.reset with
      | some n => .num n
      | none => .word "-"] ++ s.holdsToks a p.holds

/-- QUERY_PATH (R416). -/
def execQueryPath (ln : LineHdr) (path : PathArg) (s : State) : Result :=
  .next <|
    s.tellLine (.queryPath ln path) ln
      (firstErr [unknownPath [path], s.refuse ln .read .notDock])
      id fun t => .word "?" :: match pathAddr path with
        | some a => t.describe a
        | none => []

end Sys2Proof.Machine
end

