-- ==== Sys2Proof/Machine/Parse.lean ====
section
/-! DEFINITION. How a line is read (R168 to R178): its characters, checksum, address, verb and arguments, from text to a command or
to the refusal its text earns by checks 1 to 3 of Table 7.5 (R183). -/
namespace Sys2Proof.Machine

open Sys2Proof

/-- The characters of a line. -/
abbrev Chars := List Char

/-- A word of a reply from characters. -/
def wordText (t : Chars) : String := String.ofList t

/-- Characters in upper case (R169, R173, R175). -/
def upper (t : Chars) : Chars := t.map Char.toUpper

/-- ERR 10 SYNTAX with its detail (Table 7.4). -/
def syntaxErr (w : String) : Err := { code := 10, detail := [.word w] }

/-- ERR 11 UNKNOWN for a verb or a word, in upper case as every word of a reply (R176); only a path is sent as it was written (R411). -/
def unknownErr (t : Chars) : Err := { code := 11, detail := [.word (wordText (upper t))] }

/-! ### Numbers, paths, lists and dates -/

/-- A decimal digit. -/
def isDec (c : Char) : Bool := decide ('0' ≤ c) && decide (c ≤ '9')

/-- The value of a hexadecimal digit. -/
def hexVal (c : Char) : Option Nat :=
  if isDec c then some (c.toNat - 48)
  else if 'A' ≤ c ∧ c ≤ 'F' then some (c.toNat - 55)
  else if 'a' ≤ c ∧ c ≤ 'f' then some (c.toNat - 87)
  else none

/-- A hexadecimal digit. -/
def isHex (c : Char) : Bool := (hexVal c).isSome

/-- A letter, in either case. -/
def isLetter (c : Char) : Bool := (decide ('A' ≤ c) && decide (c ≤ 'Z')) || (decide ('a' ≤ c) && decide (c ≤ 'z'))

/-- The number that digits write in a base. -/
def digitsVal (base : Nat) (t : Chars) : Nat := t.foldl (fun n c => base * n + (hexVal c).getD 0) 0

/-- A suffix as it is written (R172): none for no characters, and a failure for any that is no suffix. -/
def readSuffix (t : Chars) : Except Err (Option Suffix) :=
  match upper t with
  | [] => .ok none
  | ['M', 'A'] => .ok (some .mA)
  | ['M', 'S'] => .ok (some .ms)
  | ['M', 'M'] => .ok (some .mm)
  | ['H', 'Z'] => .ok (some .hz)
  | ['%'] => .ok (some .percent)
  | _ => .error (syntaxErr "NUMBER")

/-- The digits at the front of a number, in base 10 or after `#` in base 16: their value and the characters that follow. -/
def readDigits (t : Chars) : Except Err (Nat × Chars) :=
  let take (p : Char → Bool) (base most : Nat) (u : Chars) : Except Err (Nat × Chars) :=
    let ds := u.takeWhile p
    if ds.length = 0 ∨ most < ds.length ∨ 2 ^ 48 ≤ digitsVal base ds then .error (syntaxErr "NUMBER")
    else .ok (digitsVal base ds, u.dropWhile p)
  match t with
  | '#' :: u => take isHex 16 12 u
  | _ => take isDec 10 15 t

/-- A number (R172). `unit` is the suffix its argument takes; `judged` is false where the path is unknown and no suffix can be
judged. A `-` before 0 is a negative value too on an argument that takes none. -/
def readNum (t : Chars) (unit : Option Suffix := none) (judged : Bool := true) (signed : Bool := false) : Except Err LineNum := do
  let (neg, u) := match t with
    | '-' :: u => (true, u)
    | _ => (false, t)
  let (n, rest) ← readDigits u
  let suffix ← readSuffix rest
  if judged ∧ suffix ≠ none ∧ suffix ≠ unit then throw (syntaxErr "UNIT")
  return { val := if !neg then n else if n = 0 ∧ !signed then -1 else -(n : Int), suffix := suffix, minusZero := neg && decide (n = 0) && !signed }

/-- Whether characters are words of letters, digits and `_` joined by dots (R173). -/
def isName (t : Chars) : Bool :=
  t.all (fun c => isLetter c || isDec c || c == '_' || c == '.') &&
    (t.splitOn '.').all fun w => !w.isEmpty

/-- A path (R173): a register of the index by name or address, else unknown as it was written (R411). -/
def readPathArg (t : Chars) : Except Err PathArg :=
  let known (a : Nat) : PathArg := if (pathInfo a).isSome then .reg (BitVec.ofNat 16 a) else .unknown (wordText t)
  match t with
  | ['#', a, b, '.', c, d] =>
    if [a, b, c, d].all isHex then .ok (known (digitsVal 16 [a, b, c, d])) else .error (syntaxErr "ARGS")
  | _ =>
    if t ≠ [] ∧ isName t then
      match addrOfName (wordText (upper t)) with
      | some a => .ok (known a)
      | none => .ok (.unknown (wordText t))
    else .error (syntaxErr "ARGS")

/-- A value for a path, judged by the path's base unit (R172). -/
def readValue (p : PathArg) (t : Chars) : Except Err LineNum :=
  match (pathAddr p).bind pathInfo with
  | some i => readNum t (pathSuffix i) true i.isSigned
  | none => readNum t none false

/-- An unsigned number with nothing after it, as the items of a channel list hold. -/
def readPlain (t : Chars) : Except Err Nat :=
  match readDigits t with
  | .ok (n, []) => .ok n
  | _ => .error (syntaxErr "ARGS")

/-- An item of a channel list (R174). -/
def readItem (t : Chars) : Except Err ChanItem :=
  if upper t = ['A', 'L', 'L'] then .ok .all
  else
    match t.splitOn '-' with
    | [a] => (readPlain a).map .one
    | [a, b] => do
      let x ← readPlain a
      let y ← readPlain b
      return .range x y
    | _ => .error (syntaxErr "ARGS")

/-- A channel list (R174). -/
def readChans (t : Chars) : Except Err (List ChanItem) := (t.splitOn ',').mapM readItem

/-- A date in the shape YYYY-MM-DDThh:mm:ss (R175). -/
def readDate (t : Chars) : Except Err DateArg :=
  match t with
  | [y1, y2, y3, y4, '-', m1, m2, '-', d1, d2, s, h1, h2, ':', n1, n2, ':', s1, s2] =>
    if [y1, y2, y3, y4, m1, m2, d1, d2, h1, h2, n1, n2, s1, s2].all isDec ∧ s.toUpper = 'T' then
      .ok { year := digitsVal 10 [y1, y2, y3, y4], month := digitsVal 10 [m1, m2], day := digitsVal 10 [d1, d2]
            hour := digitsVal 10 [h1, h2], minute := digitsVal 10 [n1, n2], second := digitsVal 10 [s1, s2] }
    else .error (syntaxErr "ARGS")
  | _ => .error (syntaxErr "ARGS")

/-- Bytes written as pairs of hexadecimal digits. -/
def readBytes : Chars → Except Err (List Byte)
  | [] => .ok []
  | a :: b :: rest => do
    if !(isHex a && isHex b) then throw (syntaxErr "ARGS")
    return BitVec.ofNat 8 (digitsVal 16 [a, b]) :: (← readBytes rest)
  | _ => .error (syntaxErr "ARGS")

/-- Whether characters form a word: a letter or `_`, then letters, digits and `_`. -/
def isWord (t : Chars) : Bool :=
  match t with
  | c :: rest => (isLetter c || c == '_') && rest.all fun d => isLetter d || isDec d || d == '_'
  | [] => false

/-- A word argument among those a verb knows (R175). -/
def readWord {α : Type} (t : Chars) (known : List (String × α)) : Except Err α :=
  match known.find? fun x => decide (x.1.toList = upper t) with
  | some x => .ok x.2
  | none => .error (if isWord t then unknownErr t else syntaxErr "ARGS")

/-! ### The forms of the verbs (Tables 4.8, 7.7 and 13.8) -/

/-- A failure by the number or the shape of the arguments. -/
def badArgs {α : Type} : Except Err α := .error (syntaxErr "ARGS")

/-- The shape of an argument that is a number. -/
def numShape (unit : Option Suffix := none) (signed : Bool := false) (t : Chars) : Except Err Unit := (readNum t unit true signed).map fun _ => ()

/-- The shape of an argument that is a path. -/
def pathShape (t : Chars) : Except Err Unit := (readPathArg t).map fun _ => ()

/-- The shape of an argument that is a channel list. -/
def chansShape (t : Chars) : Except Err Unit := (readChans t).map fun _ => ()

/-- The shape of an argument that is a word, known or not. -/
def wordShape (t : Chars) : Except Err Unit := if isWord t then .ok () else badArgs

/-- Arguments judged from the left: a malformed one by its own fault, one too many where it stands, and one that is missing at the end (R183). -/
def judgeArgs : List (Chars → Except Err Unit) → Nat → List Chars → Except Err Unit
  | _, least, [] => if least = 0 then .ok () else badArgs
  | [], _, _ :: _ => badArgs
  | f :: fs, least, a :: rest => do
    f a
    judgeArgs fs (least - 1) rest

/-- The shapes of a verb's arguments and how many it takes at least, for verbs whose arguments can be malformed in more than one way (Table 7.7). -/
def argShapes (verb : String) (args : List Chars) : Option (List (Chars → Except Err Unit) × Nat) :=
  let first := upper (args.getD 0 [])
  let orAll (t : Chars) : Except Err Unit := if upper t = ['A', 'L', 'L'] then .ok () else numShape none false t
  match verb with
  | "RESET" => some ([numShape], 0)
  | "TUNE" => some ([pathShape, fun v => do
      let p ← readPathArg (args.getD 0 [])
      let _ ← readValue p v], 2)
  | "PULSE" => some ([chansShape, numShape (some .hz), numShape (some .percent), numShape (some .percent)], 3)
  | "DRIVE" => some ([numShape, numShape (some .percent) true], 2)
  | "CROSS" => some ([numShape, numShape (some .mm), wordShape, numShape, numShape (some .percent), numShape], 4)
  | "RECALL" => if first = ['A', 'L', 'L'] then some ([orAll], 1) else some ([numShape, orAll], 2)
  | "SPEED" => some ([numShape none true, numShape none true], 2)
  | "MUSTER" =>
    if first = ['R', 'E', 'C', 'A', 'L', 'L'] then some ([wordShape, numShape], 2)
    else some ([numShape, pathShape, pathShape, pathShape, pathShape], 1)
  | "LOG" => some ([numShape, numShape], 0)
  | _ => none

/-- A verb that takes no argument. -/
def bare (args : List Chars) (i : Instr) : Except Err Instr := if args = [] then .ok i else badArgs

/-- A verb that takes one channel list. -/
def oneList (args : List Chars) (f : List ChanItem → Instr) : Except Err Instr :=
  match args with
  | [a] => (readChans a).map f
  | _ => badArgs

/-- The pairs of a SET. -/
def readPairs : List Chars → Except Err (List (PathArg × LineNum))
  | [] => .ok []
  | p :: v :: rest => do
    let path ← readPathArg p
    let value ← readValue path v
    return (path, value) :: (← readPairs rest)
  | _ => badArgs

/-- A SET of one pair on a path that has a row of its own is that row. -/
def setOf (ln : LineHdr) (pairs : List (PathArg × LineNum)) : Instr :=
  match pairs with
  | [(p, v)] =>
    match pathAddr p with
    | none => .set ln pairs
    | some a =>
      let i := a % 256
      if a = Reg.pwmDis then .pwmDisWrite ln v
      else if a = Reg.vsel then .vselWrite ln v
      else if isEclr a then .counterClear ln p v
      else if h : a / 256 = 0x13 ∧ i % 16 = 1 ∧ 128 ≤ i ∧ i < 192 then .pwmDutyWrite ln ⟨i / 16, by omega⟩ v
      else if h : a / 256 = 0x15 ∧ i % 16 = 5 ∧ i < 128 then .ptgtWrite ln ⟨i / 16, by omega⟩ v
      else if h : a / 256 = 0x1B ∧ 0x10 ≤ i ∧ i ≤ 0x15 then .ownerKeyWrite ln ⟨i - 0x10, by omega⟩ v
      else .set ln pairs
  | _ => .set ln pairs

/-- The slots' names. -/
def slotWords : List (String × Slot) := [("PA", .pa), ("PB", .pb), ("LA", .la), ("LB", .lb)]

/-- IMAGE (Table 4.8). -/
def readImage (ln : LineHdr) (args : List Chars) : Except Err Instr :=
  match args with
  | [] => .ok (.imageList ln)
  | op :: rest => do
    match (← readWord op [("LIST", 0), ("OPEN", 1), ("DATA", 2), ("CLOSE", 3), ("CANCEL", 4), ("RETIRE", 5), ("ACCEPT", 6)]), rest with
    | 0, [] => return .imageList ln
    | 1, k :: n :: extra =>
      wordShape k
      numShape none false n
      if extra ≠ [] then throw (syntaxErr "ARGS")
      let size := readNum n
      match readWord k slotWords, size with
      | .ok slot, .ok x => return .imageOpen ln slot x
      | .error e, .ok _ => throw e
      | .ok _, .error f => throw f
      | .error e, .error f => throw (if e.code = 10 then e else f)
    | 2, o :: more =>
      let offset ← readNum o
      let d ← (match more with
        | [d] => .ok d
        | _ => badArgs : Except Err Chars)
      if d.length ≠ 64 then throw (syntaxErr "ARGS")
      return .imageData ln offset (← readBytes d)
    | 3, [] => return .imageClose ln
    | 4, [] => return .imageCancel ln
    | 5, [k] => return .imageRetire ln (← readWord k slotWords)
    | 6, [w] =>
      readWord w [("UNTESTED", ())]
      return .imageAcceptUntested ln
    | _, _ => badArgs

/-- CROSS (Table 10.2): a syntax fault anywhere stands before an unknown action word (R183). -/
def readCross (ln : LineHdr) (ch pos act id : Chars) (more : List Chars) : Except Err Instr := do
  let c ← readNum ch
  let p ← readNum pos (some .mm)
  let action := readWord act [("OPEN", CrossAction.open_), ("CLOSE", .close), ("DUTY", .duty)]
  match action with
  | .error e => if e.code = 10 then throw e
  | .ok _ => pure ()
  let n ← readNum id
  let (duty, flags) ← (match more with
    | [] => .ok (none, none)
    | [d] => do return (some (← readNum d (some .percent)), none)
    | [d, f] => do return (some (← readNum d (some .percent)), some (← readNum f))
    | _ => badArgs : Except Err (Option LineNum × Option LineNum))
  let a ← action
  if a = .duty ∧ duty.isNone then throw (syntaxErr "ARGS")
  return .cross ln c p a n duty flags

/-- TRACE (Table 13.8). -/
def readTrace (ln : LineHdr) (args : List Chars) : Except Err Instr := do
  match args with
  | [] => badArgs
  | b :: rest =>
    let bank ← readNum b
    match rest with
    | [] => return .traceStatus ln bank
    | op :: more =>
      match (← readWord op [("ARM", 0), ("FORCE", 1), ("STOP", 2), ("DUMP", 3)]), more with
      | 0, [] => return .traceArm ln bank
      | 1, [] => return .traceForce ln bank
      | 2, [] => return .traceStop ln bank
      | 3, i :: extra =>
        let index ← readNum i
        if extra ≠ [] then throw (syntaxErr "ARGS")
        return .traceDump ln bank index
      | _, _ => badArgs

/-- CLEAR (Table 7.7): LOG, FLTg with g from 0 to 2 (R320), or channels. -/
def readClear (ln : LineHdr) (a : Chars) : Except Err Instr :=
  match upper a with
  | ['L', 'O', 'G'] => .ok (.clearLog ln)
  | ['F', 'L', 'T', '0'] => .ok (.clearFlt ln { val := 0 })
  | ['F', 'L', 'T', '1'] => .ok (.clearFlt ln { val := 1 })
  | ['F', 'L', 'T', '2'] => .ok (.clearFlt ln { val := 2 })
  | 'F' :: 'L' :: 'T' :: g => if g ≠ [] ∧ g.all isDec then .error (unknownErr a) else badArgs
  | _ => (readChans a).map (.clearChannels ln)

/-- The shape of a keyword argument that is a number (R175). -/
def keyShape (kv : Chars) : Except Err Unit :=
  match kv.splitOn '=' with
  | [k, v] => if !isWord k ∨ v = [] then badArgs else numShape none false v
  | _ => badArgs

/-- ADOPT (R166): `serial=#hhhhhhhhhhhh as n`; a serial number takes no negative value (R172). -/
def readAdopt (ln : LineHdr) (kv as_ n : Chars) : Except Err (Option Instr) := do
  match kv.splitOn '=' with
  | [k, v] =>
    if !isWord k ∨ v = [] then throw (syntaxErr "ARGS")
    let serial ← readNum v
    let unit ← (match readWord as_ [("AS", ())] with
      | .error e => if e.code = 10 then .error e else readNum n
      | .ok _ => readNum n : Except Err LineNum)
    readWord k [("SERIAL", ())]
    readWord as_ [("AS", ())]
    if serial.val < 0 then throw { code := 12, detail := [.word "SERIAL"] }
    return some (.adopt ln (BitVec.ofNat 48 serial.val.toNat) unit)
  | _ => badArgs

/-- One verb with its arguments; none for a line no unit answers. -/
def readVerb (verb : String) (ln : LineHdr) (args : List Chars) : Except Err (Option Instr) :=
  if verb = "ADOPT" then
    if ln.src = .console ∨ ln.addr ≠ .zero then .error (syntaxErr "ADDRESS")
    else do
      judgeArgs [keyShape, wordShape, numShape] 3 args
      match args with
      | [kv, w, n] => readAdopt ln kv w n
      | _ => badArgs
  else if verb = "MUSTER" ∧ ln.src = .console then .error (syntaxErr "ADDRESS")
  else do
  if let some (shapes, least) := argShapes verb args then judgeArgs shapes least args
  some <$> match verb, args with
    | "ID", _ => bare args (.id ln)
    | "STATE", _ => bare args (.state ln)
    | "GET", _ =>
      if 1 ≤ args.length ∧ args.length ≤ 4 then (args.mapM readPathArg).map (.get ln) else badArgs
    | "SET", _ =>
      do
        let pairs ← readPairs (args.take 8)
        if args = [] ∨ 8 < args.length then throw (syntaxErr "ARGS")
        return setOf ln pairs
    | "TUNE", [p, v] => do
      let path ← readPathArg p
      return .tune ln path (← readValue path v)
    | "COMMIT", _ => bare args (.commit ln)
    | "ABORT", _ => bare args (.abort ln)
    | "SAVE", [] => .ok (.save ln)
    | "SAVE", [w] => (readWord w [("REACH", ())]).map fun _ => .saveReach ln
    | "IMAGE", _ => readImage ln args
    | "RESET", [] => .ok (.reset ln none)
    | "RESET", [n] => (readNum n).map fun x => .reset ln (some x)
    | "ANCHOR", _ => bare args (.anchor ln)
    | "MOOR", _ => bare args (.moor ln)
    | "ARM", _ => bare args (.arm ln)
    | "GO", _ => bare args (.go ln)
    | "HALT", _ => bare args (.halt ln)
    | "KILL", _ => bare args (.killLine ln)
    | "RESUME", _ => bare args (.resume ln)
    | "OPEN", _ => oneList args (.openVerb ln)
    | "CLOSE", _ => oneList args (.close ln)
    | "PULSE", c :: f :: d :: more => do
      let chans ← readChans c
      let freq ← readNum f (some .hz)
      let duty ← readNum d (some .percent)
      match more with
      | [] => return .pulse ln chans freq duty none
      | [p] => return .pulse ln chans freq duty (some (← readNum p (some .percent)))
      | _ => badArgs
    | "HOME", [c] => (readChans c).map fun l => .home ln l none
    | "HOME", [c, w] => do
      let chans ← readChans c
      return .home ln chans (some (← readWord w [("OPEN", .open_), ("CLOSED", .closed)]))
    | "DRIVE", [c, d] => do
      let ch ← readNum c
      return .drive ln ch (← readNum d (some .percent) true true)
    | "CROSS", c :: p :: a :: n :: more => readCross ln c p a n more
    | "RECALL", [a] => if upper a = ['A', 'L', 'L'] then .ok (.recallAll ln) else badArgs
    | "RECALL", [c, a] => do
      let ch ← readNum c
      if upper a = ['A', 'L', 'L'] then return .recallChannelAll ln ch
      return .recallOne ln ch (← readNum a)
    | "SHUT", _ => oneList args (.shut ln)
    | "FREE", _ => oneList args (.free ln)
    | "SPEED", [v, w] => do
      let x ← readNum v none true true
      return .speed ln x (← readNum w none true true)
    | "TIME", [] => .ok (.time ln)
    | "TIME", [d] => (readDate d).map (.timeSet ln)
    | "MUSTER", t :: more =>
      if upper t = ['R', 'E', 'C', 'A', 'L', 'L'] then
        match more with
        | [u] => (readNum u).map (.musterRecall ln)
        | _ => badArgs
      else do
        if 4 < more.length then throw (syntaxErr "ARGS")
        let at_ ← readNum t
        return .muster ln at_ (← more.mapM readPathArg)
    | "TRACE", _ => readTrace ln args
    | "LOG", [] => .ok (.log ln none none)
    | "LOG", [n] => (readNum n).map fun x => .log ln (some x) none
    | "LOG", [n, k] => do
      let x ← readNum n
      return .log ln (some x) (some (← readNum k))
    | "AUTH", [] => .ok (.auth ln)
    | "AUTH", [a, b, c] =>
      if a.length = 4 ∧ b.length = 4 ∧ c.length = 4 then (readBytes (a ++ b ++ c)).map (.authResponse ln) else badArgs
    | "CLEAR", [a] => readClear ln a
    | "HELM", _ => bare args (.helm ln)
    | "ENUM", _ => bare args (.enum ln)
    | "LOCK", [w] => readWord w [("CONSOLE", .lockConsole ln), ("NONE", .lockNone ln)]
    | "?", [] => .ok (.queryList ln)
    | "?", [w] =>
      if verbs.any fun v => decide (v.toList = upper w) then .ok (.queryVerb ln (wordText (upper w)))
      else (readPathArg w).map (.queryPath ln)
    | _, _ => badArgs

/-! ### The line -/

/-- An address form (Table 7.3); none for what is no form. -/
def readAddr (t : Chars) : Option AddrForm :=
  let dec (u : Chars) : Option Nat :=
    if u ≠ [] ∧ u.length ≤ 15 ∧ u.all isDec then some (digitsVal 10 u) else none
  match t with
  | ['@', '*'] => some .all
  | ['@', '.'] => some .self
  | '@' :: rest =>
    match rest.splitOn '-' with
    | [a] => (dec a).map fun n => if n = 0 then .zero else .unit n
    | [a, b] => do return .range (← dec a) (← dec b)
    | _ => none
  | _ => none

/-- A line taken apart (R169, R170): its words before the checksum, the text the checksum covers with the checksum, and whether it
has a comment. -/
structure LineText where
  words : List Chars
  sum : Option (Chars × Nat)
  comment : Bool
  spaced : Bool

/-- A checksum at the end of characters: what stands before its `~`, and its value (R169, R177). -/
def readSum (t : Chars) : Option (Chars × Nat) :=
  match t.reverse.dropWhile (· = ' ') with
  | b :: a :: '~' :: rest => if isHex a ∧ isHex b then some (rest.reverse, digitsVal 16 [a, b]) else none
  | _ => none

/-- A line taken apart. A `;` right behind a word stands without the space that R169 has between elements, so the line is refused, though R170 has the
comment begin wherever the `;` stands (DESIGN CHOICE, log 98). -/
def takeApart (t : Chars) : LineText :=
  let pre := t.takeWhile (· ≠ ';')
  let comment := decide (pre.length < t.length)
  let sum := readSum pre
  let body := match sum with
    | some x => x.1
    | none => pre
  let loose := (comment && !pre.isEmpty && decide (pre.getLast? ≠ some ' ')) ||
    (sum.isSome && decide (body.getLast? ≠ some ' ')) || body.contains '~'
  { words := (body.splitOn ' ').filter fun w => !w.isEmpty, sum := sum, comment := comment, spaced := !loose }

/-- Whether a line is ignored: empty, only spaces, or a comment alone, whatever the comment holds (R170). `chars` says that it held a character
no line has. -/
def isIgnored (t : Chars) (chars : Bool) : Bool :=
  match t.dropWhile (· = ' ') with
  | [] => !chars
  | c :: _ => c == ';'

/-- Whether a checksum that is present holds (R177). -/
def LineText.sumHolds (x : LineText) : Bool :=
  match x.sum with
  | some (u, n) => decide ((crc8 (u.map fun c => BitVec.ofNat 8 c.toNat)).toNat = n)
  | none => true

/-- Checks 2 and 3 of a line from a source (R183): its command, its refusal, or none for a line no unit answers. `long` and `chars`
say that it was too long or held a bad character. -/
def readLine (src : Source) (addr : Option AddrForm) (x : LineText) (long chars : Bool) : Except Err (Option Instr) :=
  if long then .error (syntaxErr "LONG")
  else if chars then .error (syntaxErr "CHAR")
  else match addr, x.words with
    | none, _ => .error (syntaxErr "ADDRESS")
    | some a, _ :: verb :: args =>
      if !x.spaced ∨ (x.comment ∧ x.sum.isSome) then badArgs
      else if verbs.any fun v => decide (v.toList = upper verb) then readVerb (wordText (upper verb)) { src := src, addr := a } args
      else .error (unknownErr verb)
    | some _, _ => badArgs

end Sys2Proof.Machine
end

