-- ==== Sys2Proof/Machine/Intake.lean ====
section
/-! DEFINITION. How lines come in: frames on the chain (R136, R139, R153, R181) and characters of the console (R198, R199). -/
namespace Sys2Proof.Machine

open Sys2Proof

/-! ### A line completes (R170, R171, R179, R181) -/

/-- The lines a source's queue takes (R181). -/
def queueRoom : Source → Nat
  | .chain => 8
  | .console => 2

/-- What a complete line that designates this unit comes to: a command, or the refusal of checks 1 to 3; none where no unit answers
it. -/
def lineOf (src : Source) (addr : Option AddrForm) (x : LineText) (long chars : Bool) : Option (Instr ⊕ Err) :=
  if !x.sumHolds then some (.inr { code := 20 })
  else match readLine src addr x long chars with
    | .ok (some i) => some (.inl i)
    | .ok none => none
    | .error e => some (.inr e)

/-- A line joins its queue, or is refused with ERR 16 BUSY where that is full, its refusal waiting for its turn (R181). A refusal at
the head of the queue is answered at once. -/
def State.enqueue (s : State) (src : Source) (what : Instr ⊕ Err) (bare : Bool) (turn : Option Sweep) : State :=
  let full := decide (queueRoom src ≤ linesIn (s.manil.queue src))
  let taken : Instr ⊕ Err := match what with
    | .inl i => if full then .inr { code := 16, detail := [.word "QUEUE"] } else .inl i
    | .inr e => .inr e
  let q : QLine := { what := taken, doneAt := s.clk, tides := s.manil.tideCount, bare := bare, turn := turn }
  let s1 := s.setQueue src (s.manil.queue src ++ [q])
  if s1.live then s1.answerRefused src (s1.manil.queue src) else s1

/-- A line that comes to nothing any unit answers is dropped; any other joins its queue. -/
def State.enqueueSome (s : State) (src : Source) (what : Option (Instr ⊕ Err)) (bare : Bool) (turn : Option Sweep) : State :=
  match what with
  | some w => s.enqueue src w bare turn
  | none => s

/-- A line is complete (R170, R171, R178, R179): its checksum is counted in every unit, and what designates this unit is queued. -/
def State.complete (s : State) (src : Source) (text : Chars) (long chars : Bool) (turn : Option Sweep) : State :=
  if isIgnored text chars then s
  else
    let x := takeApart text
    let addr := x.words.head?.bind readAddr
    let verdict : Verdict := match addr with
      | some a => s.verdict { src := src, addr := a }
      | none => match src with
        | .chain => .invalid
        | .console => .refused
    let bare := decide (src = .chain) && x.sum.isNone
    let failed := !x.sumHolds || (bare && bit (s.reg Reg.mnlCfg) 0 && decide (verdict ≠ .mine))
    let s1 := if failed then s.modManil fun m => { m with eCheck := satInc m.eCheck } else s
    match verdict with
    | .invalid => s1.countAddr
    | .other => s1
    | .mine => s1.enqueueSome src (lineOf src addr x long chars) bare turn
    | .refused => s1.enqueueSome src (lineOf src none x long chars) bare turn

/-! ### Frames (R136, R139, R153) -/

/-- The characters of a frame's data. -/
def charsOf (text : List Byte) : Chars := text.map fun b => Char.ofNat b.toNat

/-- Whether a character is none of a line's (R168). -/
def badChar (c : Char) : Bool := decide (c.toNat < 0x20) || decide (0x7E < c.toNat)

/-- Whether a line is a sweep: addressed to `@*`, to a range or to `@0` (R171). -/
def isSweep (text : Chars) : Bool :=
  match (takeApart text).words.head?.bind readAddr with
  | some .all => true
  | some .zero => true
  | some (.range n m) => decide (1 ≤ n) && decide (n ≤ m) && decide (m ≤ 128)
  | _ => false

/-- A sweep line is forwarded and counts as outstanding; an end unit owes its TURN (R153). -/
def State.noteSweep (s : State) (crc : Byte) : State × Option Sweep :=
  if s.isEnd then
    let seq := s.chain.sweepSeq + 1
    (s.modChain fun c => { c.newSweep crc false true with turnsDue := c.turnsDue ++ [{ crc := crc, seq := seq, due := s.clk + 20000 }] },
      some { crc := crc, seq := seq })
  else (s.modChain fun c => c.newSweep crc false false, none)

/-- A line frame from the helm's side: one of more than 120 characters is discarded, an empty one ignored (R136). -/
def State.takeFrame (s : State) (text : List Byte) : State :=
  if 120 < text.length then s.frameError s.chain.upPort
  else if text = [] then s
  else
    let t := charsOf text
    let (s1, turn) := if isSweep t then s.noteSweep (crc8 text) else (s, none)
    if s1.phase = .running then s1.complete .chain t false (t.any badChar) turn else s1

/-- What of a frame travels on (R139). -/
def frameWire : FrameArrival → WireItem
  | .line t => .frame 0x01 t
  | .notice t => .frame 0x0B t
  | .cutLine t => .cut 0x01 t
  | .cutNotice t => .cut 0x0B t
  | .strayEol => .char 0x102
  | .strayData b => .char (b.setWidth 9)

/-- What a port makes of a frame beside forwarding it: one of more than 120 characters and every broken one is a FRAME error
(R136), and a whole line from the upstream side is taken. -/
def State.judgeFrame (s : State) (port : Port) (fr : FrameArrival) : State :=
  match fr with
  | .line t =>
    if port = s.chain.upPort then s.takeFrame t else if 120 < t.length then s.frameError port else s
  | .notice t => if 120 < t.length then s.frameError port else s
  | _ => s.frameError port

/-- LINE_FRAME (R136, R139, R153, R159, R181): forwarded whatever it holds, but for what a standby helm sends, which is a FRAME
error; a line from the upstream port is then taken. -/
def execLineFrame (port : Port) (fr : FrameArrival) (s : State) : Result :=
  .next <|
    s.receive port (frameWire fr) fun s =>
      if s.farHelmAt port then s.frameError port else (s.forward port (frameWire fr)).judgeFrame port fr

/-! ### The console (R198, R199) -/

/-- A character is echoed while MNL.CFG.ECHO is 1 (R199). -/
def State.echo (s : State) (bytes : List Byte) : State :=
  if bit (s.reg Reg.mnlCfg) 2 then s.modManil fun m => { m with conTx := m.conTx ++ bytes } else s

/-- A terminator completes the line in assembly (R168, R199). -/
def State.consoleEnd (s : State) : State :=
  let t := charsOf s.manil.conLine
  let bad := s.manil.conBad
  (s.modManil fun m => { m with conLine := [], conBad := false }).complete .console t (decide (120 < t.length))
    (bad || t.any badChar) none

/-- A character received without an error (R168, R199): the LF of a CR LF ends nothing more. -/
def State.consoleTake (s : State) (c : Byte) : State :=
  let last := s.manil.conLastCr
  let s1 := s.modManil fun m => { m with conLastCr := decide (c = 13) }
  if c = 10 ∧ last then s1
  else if c = 13 ∨ c = 10 then (s1.echo [13, 10]).consoleEnd
  else if c = 8 ∨ c = 127 then (s1.echo [c]).modManil fun m => { m with conLine := m.conLine.dropLast }
  else
    let d : Byte := if c = 9 then 32 else c
    (s1.echo [d]).modManil fun m => { m with conLine := m.conLine ++ [d] }

/-- CONSOLE_CHARACTER (R199). -/
def execConsoleCharacter (c : ConsoleChar) (s : State) : Result :=
  .next <|
    if decide (s.phase ≠ .running) || !s.domainOn 106 then s
    else if c.framingError || c.overrun then
      s.modManil fun m => { m with conBad := true, conLastCr := false, eCon := satInc m.eCon }
    else s.consoleTake c.ch

end Sys2Proof.Machine
end

