-- ==== Sys2Proof/Machine/Manifest.lean ====
section
/-! DEFINITION. The lines that load and take back crossings: CROSS and RECALL (R251 to R253, R271 to R274). -/
namespace Sys2Proof.Machine

open Sys2Proof

/-! ### CROSS -/

/-- The flags argument of CROSS: word 2 bits [14:9] (R251, Table 10.2). -/
def crossing (pos ident : LineNum) (action : CrossAction) (duty : Nat) (flags : Nat) : Crossing :=
  { target := wordOf pos.val, ident := wordOf ident.val, action := action, duty := duty, dir := flags % 4
    late := flags.testBit 2, noLearn := flags.testBit 3, notify := flags.testBit 4, noTc := flags.testBit 5, stale := false }

/-- A number left out reads 0. -/
def orZero (n : Option LineNum) : LineNum := n.getD { val := 0 }

/-- Whether a duty does not go with its action and channel (R251). -/
def badDuty (c : Fin 40) (action : CrossAction) (duty : LineNum) : Bool :=
  match action with
  | .duty => decide (duty.val < 5) || decide (100 < duty.val) || decide (32 ≤ c.val)
  | _ => decide (duty.val ≠ 0)

/-- The manifest a CROSS appends to: stale crossings go first (R253). -/
def XChan.fresh (x : XChan) : List Crossing := x.manifest.filter fun y => !y.stale

/-- Whether an id is that of a crossing of the channel that is pending, or cast and not landed (R251). -/
def XChan.hasId (x : XChan) (n : Word) : Bool :=
  x.fresh.any (fun y => decide (y.ident = n)) || x.decided.any (fun k => decide (k.x.ident = n)) ||
    match x.cur with
    | some k => decide (k.x.ident = n) && decide (k.stage ≠ .landed) && !k.reverse
    | none => false

/-- Whether the channel, its lane or PD101 is off (R251). -/
def State.crossOff (s : State) (c : Fin 40) : Bool :=
  !s.domainOn (chanDomain c) || !s.domainOn (laneDomain c) || !s.domainOn 101

/-- A predriver takes a crossing only in mode VALVE (R332). -/
def State.notValve (s : State) (c : Fin 40) : Bool :=
  match chanKind c with
  | .inl _ => false
  | .inr v => decide (s.valveMode v ≠ .valve)

/-- The refusal of a CROSS (R251). -/
def State.crossErr (s : State) (ln : LineHdr) (ch pos : LineNum) (action : CrossAction) (ident : LineNum) (duty flags : Option LineNum) :
    Option Err :=
  let c := chanNum ch
  let x := s.engine.chans[c]
  firstErr
    [unitErr ch, unitErr pos (some .mm), unitErr ident, duty.bind (unitErr · (some .percent)), flags.bind unitErr,
     errWord (decide (action = .duty) && duty.isNone) 10 "ARGS",
     s.refuse ln .write .cross
       [s.chanErr .all ch, errWord (s.notValve c) 12 "CH", rangeErr pos 0 0xFFFFFF "POS", rangeErr ident 0 0xFFFFFF "ID",
        errWord (badDuty c action (orZero duty)) 12 "DUTY",
        errWord (decide ((orZero flags).val < 0) || decide (63 < (orZero flags).val) || decide ((orZero flags).val % 4 = 3)) 12
          "FLAGS",
        errIf (s.crossOff c) 21 [chanTok c], errWord (x.hasId (wordOf ident.val)) 18 "ID",
        errIf (decide (s.depth c ≤ x.fresh.length)) 17 [chanTok c]]]

/-- CROSS (R251, R253): one crossing at the tail of a channel's manifest. -/
def execCross (ln : LineHdr) (ch pos : LineNum) (action : CrossAction) (crossId : LineNum) (duty flags : Option LineNum) (s : State) :
    Result :=
  .next <|
    let c := chanNum ch
    s.tellLine (.cross ln ch pos action crossId duty flags) ln (s.crossErr ln ch pos action crossId duty flags)
      (fun t => t.modX c fun x =>
        { x with manifest := x.fresh ++ [crossing pos crossId action (natOf (orZero duty)) (natOf (orZero flags))] })
      fun t => [.word "CROSS", .num c.val, .num crossId.val, .num ((t.engine.chans[c]).manifest.length)]

/-! ### RECALL -/

/-- A level as the action that casts it (R274). -/
def Level.action : Level → CrossAction × Nat
  | .closed => (.close, 0)
  | .open_ => (.open_, 0)
  | .duty d => (.duty, d)

/-- Whether a demand leaves a valve to its crossings: a cast run, or none (Table 12.6, level 8). -/
def ValveDemand.crosses : ValveDemand → Bool
  | .run _ .crossing => true
  | .idle => true
  | _ => false

/-- How long a valve has travelled under its crossing, in µs (R273). -/
def State.travelled (s : State) (v : Fin 8) : Nat :=
  match (s.pwm.valves[v]).run with
  | some r => if r.why = .crossing then s.clk - r.startClk else 0
  | none => (s.pwm.valves[v]).ranFor

/-- The action that leads back from the one a valve was cast to (R273). -/
def backAction : CrossAction → CrossAction
  | .close => .open_
  | _ => .close

/-- A recalled valve's current crossing is its reverse, which lands after as long as the valve had travelled (R273; log 41). -/
def Current.reversed (k : Current) (ts : ChainTime) (travel : Nat) : Current :=
  { k with x := { k.x with action := backAction k.x.action, notify := false }, stage := .cast, ts := ts, landAt := some (after ts travel)
           reverse := true }

/-- A recall in stage CAST (R273): a solenoid's profile aborts with fast decay, and one that a CLOSE had ended reopens at once; a valve's
travel reverses towards the end it left, whatever level stood before, and lands after as long as it had travelled; the run itself ends as R325 says. -/
def State.recallCast (s : State) (c : Fin 40) : State :=
  match (s.engine.chans[c]).cur with
  | none => s
  | some k =>
    let s1 := s.endCast c .recallVerb
    match chanKind c with
    | .inl i =>
      if k.x.action = .close then s1.castOutput c
      else ((s1.offDemand i true).modSol i fun ch => { ch with want := false, pulsing := false, onUntil := none, full := false
                                                               grid := none }).refresh
    | .inr v =>
      let travelled := s.travelled v
      let s1 := s1.modX c fun x => { x with cur := some (k.reversed s.time travelled) }
      let e := match backAction k.x.action with
        | .close => ValveEnd.closed
        | _ => .open_
      let d := s1.valveDemand v
      if d.crosses then
        ((s1.modValve v fun y => { y with demand := d }).startRun v e .crossing).refresh
      else s1.refresh

/-- A recall in stage LANDED is a reverse cast, without a lead, back to the level before (R274). -/
def State.recallLanded (s : State) (c : Fin 40) (k : Current) : State :=
  let (act, d) := k.before.action
  let x : Crossing := { k.x with action := act, duty := d, notify := false }
  let s1 := (s.xngEvt 4).castNow c { x := x, stage := .decided, ts := s.time, before := k.x.level, landAt := none, reverse := true }
  s1.notice [.word "RECALLED", .word "AFTER", .word "LANDING", .num c.val, .num k.x.ident.toNat]

/-- What a single recall finds (R271): a pending crossing, one decided, or the current one in its stage; nothing for one held,
superseded or reversed. -/
inductive Found where
  | pending (x : Crossing)
  | decided (k : Current)
  | cast (k : Current)
  | landed (k : Current)
  | gone
deriving DecidableEq, Repr

/-- The stage in the reply. -/
def Found.word : Found → String
  | .pending _ => "PENDING"
  | .decided _ => "DECIDED"
  | .cast _ => "CAST"
  | .landed _ => "LANDED"
  | .gone => "GONE"

/-- The current crossing by its id. -/
def XChan.foundCurrent (x : XChan) (n : Word) : Found :=
  match x.cur with
  | some k =>
    if k.x.ident ≠ n ∨ k.reverse then .gone
    else match k.stage with
      | .landed => .landed k
      | _ => .cast k
  | none => .gone

/-- The crossing of a channel with an id. -/
def XChan.found (x : XChan) (n : Word) : Found :=
  match x.manifest.find? fun y => decide (y.ident = n) with
  | some y => .pending y
  | none => match x.decided.find? fun k => decide (k.x.ident = n) with
    | some k => .decided k
    | none => x.foundCurrent n

/-- A found crossing is recalled (R272 to R274). -/
def State.takeBack (s : State) (c : Fin 40) : Found → State
  | .pending y => s.modX c fun x => { x with manifest := x.manifest.erase y }
  | .decided k => (s.endDecided c k .recallVerb).refresh
  | .cast _ => s.recallCast c
  | .landed k => s.recallLanded c k
  | .gone => s

/-- RECALL_ONE (R271). -/
def execRecallOne (ln : LineHdr) (ch crossId : LineNum) (s : State) : Result :=
  .next <|
    let c := chanNum ch
    s.line (.recallOne ln ch crossId) ln
      (firstErr [unitErr ch, unitErr crossId,
        s.refuse ln .write .notDock
          [s.chanErr .all ch, rangeErr crossId 0 0xFFFFFF "ID",
           errIf (decide ((s.engine.chans[c]).found (wordOf crossId.val) = .gone)) 21 [.num crossId.val]]])
      fun _ t =>
        let f := (t.engine.chans[c]).found (wordOf crossId.val)
        (t.takeBack c f, some (.ok [.word "RECALL", .num c.val, .num crossId.val, .word f.word]))

/-- Whether a current crossing is recalled by an ALL form: one cast, not landed, no reverse cast. -/
def Current.recallable (k : Current) : Bool := decide (k.stage ≠ .landed) && !k.reverse

/-- How many current crossings of a channel an ALL form recalls. -/
def XChan.openCurrents (x : XChan) : Nat :=
  x.decided.length + match x.cur with
    | some k => b2n k.recallable
    | none => 0

/-- Every crossing of a channel is taken back but a landed one (R271). -/
def State.recallAllOf (s : State) (c : Fin 40) : State :=
  let x := s.engine.chans[c]
  let s1 := s.modX c fun y => { y with manifest := [] }
  let s2 := x.decided.foldl (fun t k => t.endDecided c k .recallVerb) s1
  match x.cur with
  | some k => if k.recallable then s2.recallCast c else s2.refresh
  | none => s2.refresh

/-- The two numbers of the reply to an ALL form. -/
def State.recallCounts (s : State) (cs : List (Fin 40)) : List Tok :=
  [.word "RECALL", .num (cs.map fun c => (s.engine.chans[c]).manifest.length).sum,
   .num (cs.map fun c => (s.engine.chans[c]).openCurrents).sum]

/-- RECALL_CHANNEL_ALL (R271). -/
def execRecallChannelAll (ln : LineHdr) (ch : LineNum) (s : State) : Result :=
  .next <|
    s.line (.recallChannelAll ln ch) ln
      (firstErr [unitErr ch, s.refuse ln .write .notDock [s.chanErr .all ch]])
      fun _ t => (t.recallAllOf (chanNum ch), some (.ok (t.recallCounts [chanNum ch])))

/-- RECALL_ALL (R271, R300). -/
def execRecallAll (ln : LineHdr) (s : State) : Result :=
  .next <|
    s.line (.recallAll ln) ln (s.refuse ln .write .notDock) fun _ t =>
      let cs := allChans.filter fun c => !t.oddChan c
      (cs.foldl State.recallAllOf t, some (.ok (t.recallCounts cs)))

end Sys2Proof.Machine
end

