-- ==== Sys2Proof/Machine/Manual.lean ====
section
/-! DEFINITION. Manual actuation in READY and the clearing of faults: OPEN, CLOSE, PULSE, HOME, DRIVE, CLEAR chans and CLEAR
FLTg (chapters 11 and 12). -/
namespace Sys2Proof.Machine

open Sys2Proof

/-- The valves that a list names and the modes of R308 forbid a manual verb. -/
def State.modeErr (s : State) (cs : List (Fin 40)) : Option Err :=
  errWord (cs.any fun c => match chanKind c with
    | .inl _ => false
    | .inr v => !(s.valveMode v).runs) 12 "CH"

/-- ERR 18 ACTIVE SHUT where a named channel is held (R217). -/
def State.shutErr (s : State) (cs : List (Fin 40)) : Option Err := errWord (cs.any s.held) 18 "SHUT"

/-- The refusal of a manual verb on a channel list (R174, R217, R300, R329). -/
def State.manualErr (s : State) (ln : LineHdr) (k : ChanClass) (chans : List ChanItem) (more : List (Option Err) := []) :
    Option Err :=
  let cs := s.listChans chans
  s.refuse ln .write .manual ([s.listErr k chans, s.modeErr cs] ++ more ++ [s.shutErr cs])

/-- A solenoid channel's level 7 demand. -/
def State.manualSol (s : State) (c : Fin 32) (m : SolManual) : State :=
  let s1 := s.modSol c fun ch => { ch with manual := m }
  if m = .on then s1.renewDemand c else s1

/-- A valve's level 7 demand: a verb that names an end starts a run even where one ran or had ended (R324, R329). -/
def State.manualValve (s : State) (v : Fin 8) (m : ValveManual) : State :=
  let s1 := s.modValve v fun y => { y with manual := m }
  match s1.valveDemand v with
  | .run e .manual => (s1.modValve v fun y => { y with demand := .run e .manual }).startRun v e .manual
  | .drive n => s1.takeDemand v (.drive n)
  | _ => s1

/-- A manual demand on each channel of a list. -/
def State.manualAll (s : State) (cs : List (Fin 40)) (sol : SolManual) (valve : Fin 8 → ValveManual) : State :=
  (cs.foldl (fun t c => match chanKind c with
    | .inl i => t.manualSol i sol
    | .inr v => t.manualValve v (valve v)) s).refresh

/-- OPEN_VERB (R302, R329). -/
def execOpenVerb (ln : LineHdr) (chans : List ChanItem) (s : State) : Result :=
  .next <|
    s.plainLine (.openVerb ln chans) ln (s.manualErr ln .all chans)
      fun t => t.manualAll (t.listChans chans) .on fun _ => .toEnd .open_

/-- CLOSE (R302, R329). -/
def execClose (ln : LineHdr) (chans : List ChanItem) (s : State) : Result :=
  .next <|
    s.plainLine (.close ln chans) ln (s.manualErr ln .all chans)
      fun t => t.manualAll (t.listChans chans) .none fun _ => .toEnd .closed

/-- PULSE (R294 to R296): frequency in Hz, duty and phase in %, the phase 0 where it is omitted. -/
def execPulse (ln : LineHdr) (chans : List ChanItem) (f d : LineNum) (p : Option LineNum) (s : State) : Result :=
  .next <|
    s.plainLine (.pulse ln chans f d p) ln
      (firstErr [unitErr f (some .hz), unitErr d (some .percent), p.bind (unitErr · (some .percent)),
        s.manualErr ln .sol chans
          [rangeErr f 5 50 "FREQ", rangeErr d 5 100 "DUTY", p.bind (rangeErr · 0 99 "PHASE")]])
      fun t => t.manualAll (t.listChans chans) (.pulse { f := natOf f, d := natOf d, p := (p.map natOf).getD 0 }) fun _ => .none

/-- HOME (R329): to the end named, else to MVv.CFG.HOMEEND. -/
def execHome (ln : LineHdr) (chans : List ChanItem) (target : Option ValveEnd) (s : State) : Result :=
  .next <|
    s.plainLine (.home ln chans target) ln (s.manualErr ln .valve chans)
      fun t => t.manualAll (t.listChans chans) .none fun v => .toEnd (target.getD (t.homeEnd v))

/-- DRIVE (R329): a signed whole percentage; 0 ends the drive. -/
def execDrive (ln : LineHdr) (ch duty : LineNum) (s : State) : Result :=
  .next <|
    s.plainLine (.drive ln ch duty) ln
      (firstErr [unitErr ch, unitErr duty (some .percent),
        s.refuse ln .write .manual
          [s.chanErr .valve ch, s.modeErr [chanNum ch], rangeErr duty (-100) 100 "DUTY", s.shutErr [chanNum ch]]])
      fun t => t.manualAll [chanNum ch] .none fun _ => .drive duty.val

/-! ### CLEAR -/

/-- The banks in which a list names a channel. -/
def banksOf (cs : List (Fin 40)) : List (Fin 8) :=
  allBanks.filter fun b => cs.any fun c => decide (c.val / 4 = b.val)

/-- ERR 18 ACTIVE OT while a bank with OTS latched reads 160 °C or more (R305). -/
def State.hotErr (s : State) (cs : List (Fin 40)) : Option Err :=
  errWord ((banksOf cs).any fun b => (s.sol.banks[b]).fault.getLsbD 0 && decide (160 ≤ (s.sol.banks[b]).temp)) 18 "OT"

/-- ERR 18 ACTIVE BOTH while both enabled limits of a named valve are asserted (R328). -/
def State.bothErr (s : State) (cs : List (Fin 40)) : Option Err :=
  errWord (cs.any fun c => match chanKind c with
    | .inl _ => false
    | .inr v => s.limAsserted v .open_ && s.limAsserted v .closed) 18 "BOTH"

/-- A bank's fault is cleared, and with it the cause BANK of its channels (R304, R305). -/
def State.clearBank (s : State) (b : Fin 8) : State :=
  ([0, 1, 2, 3] : List (Fin 4)).foldl (fun t k => t.modSol (chanOf b k) fun ch => { ch with fault := drop ch.fault 3 })
    (s.modBank b fun x => { x with fault := 0 })

/-- A channel's fault latches are cleared; a pair's with both its members. -/
def State.clearChan (s : State) (c : Fin 40) : State :=
  match chanKind c with
  | .inl i =>
    let s1 := s.modSol i fun ch => { ch with fault := 0 }
    if s.leads i then s1.modSol (partner i) fun ch => { ch with fault := 0 } else s1
  | .inr v => s.modValve v fun y => { y with fault := 0 }

/-- CLEAR_CHANNELS (R305, R328). -/
def execClearChannels (ln : LineHdr) (chans : List ChanItem) (s : State) : Result :=
  .next <|
    s.plainLine (.clearChannels ln chans) ln
      (s.refuse ln .write .clear
        [s.listErr .all chans, s.hotErr (s.listChans chans), s.bothErr (s.listChans chans)])
      fun t =>
        let cs := t.listChans chans
        (cs.foldl State.clearChan ((banksOf cs).foldl State.clearBank t)).refresh

/-- CLEAR_FLT (R322): the latch is released once the input is inactive; the slices resume at their next period start. -/
def execClearFlt (ln : LineHdr) (g : LineNum) (s : State) : Result :=
  .next <|
    s.plainLine (.clearFlt ln g) ln
      (firstErr [errIf (decide (g.val < 0) || decide (2 < g.val)) 11 [.word ("FLT" ++ toString g.val)],
        s.refuse ln .write .clear [errWord (s.pwm.fltLatch.getLsbD (natOf g) && s.fltActive.getLsbD (natOf g)) 18 "FLT"]])
      fun t => (t.modPwm fun p => { p with fltLatch := drop p.fltLatch (natOf g) }).refresh

end Sys2Proof.Machine
end

