-- ==== Sys2Proof/Machine/Dispatch.lean ====
section
/-! DEFINITION. The dispatch of a command to its meaning: one arm for each row of the table. -/
namespace Sys2Proof.Machine

open Sys2Proof

/-- The effect of a command on everything but the queue of commands that wait. -/
def exec (i : Instr) (s : State) : Host.Outcome State Fault Refusal :=
  match i with
  | .lineFrame port fr => Sys2Proof.Machine.execLineFrame port fr s
  | .consoleCharacter c => Sys2Proof.Machine.execConsoleCharacter c s
  | .invalidCharacter port ch => Sys2Proof.Machine.execInvalidCharacter port ch s
  | .receiverAligned port => Sys2Proof.Machine.execReceiverAligned port s
  | .alignmentLost port => Sys2Proof.Machine.execAlignmentLost port s
  | .upInsertion arriving => Sys2Proof.Machine.execUpInsertion arriving s
  | .kill port => Sys2Proof.Machine.execKill port s
  | .tide seq => Sys2Proof.Machine.execTide seq s
  | .tideApply => Sys2Proof.Machine.execTideApply s
  | .domainGroupOn => Sys2Proof.Machine.execDomainGroupOn s
  | .enumMeasure seq => Sys2Proof.Machine.execEnumMeasure seq s
  | .enumEcho fromHelm roundTrip => Sys2Proof.Machine.execEnumEcho fromHelm roundTrip s
  | .enumAssign seq => Sys2Proof.Machine.execEnumAssign seq s
  | .enumHop seq => Sys2Proof.Machine.execEnumHop seq s
  | .enumQuietExpiry => Sys2Proof.Machine.execEnumQuietExpiry s
  | .turnEnum seq => Sys2Proof.Machine.execTurnEnum seq s
  | .turnSweep seq => Sys2Proof.Machine.execTurnSweep seq s
  | .turnSweepTimeout => Sys2Proof.Machine.execTurnSweepTimeout s
  | .helmq port seq => Sys2Proof.Machine.execHelmq port seq s
  | .helmg port seq => Sys2Proof.Machine.execHelmg port seq s
  | .helmd port seq => Sys2Proof.Machine.execHelmd port seq s
  | .helmqExpiry => Sys2Proof.Machine.execHelmqExpiry s
  | .timeSequence seq sub => Sys2Proof.Machine.execTimeSequence seq sub s
  | .downstreamLinkLost => Sys2Proof.Machine.execDownstreamLinkLost s
  | .downstreamLinkUp => Sys2Proof.Machine.execDownstreamLinkUp s
  | .holdoverEntry => Sys2Proof.Machine.execHoldoverEntry s
  | .upstreamPortTaken bow stern => Sys2Proof.Machine.execUpstreamPortTaken bow stern s
  | .rateRecognised code => Sys2Proof.Machine.execRateRecognised code s
  | .rateLost => Sys2Proof.Machine.execRateLost s
  | .clpllLock => Sys2Proof.Machine.execClpllLock s
  | .xoStable => Sys2Proof.Machine.execXoStable s
  | .xoFail => Sys2Proof.Machine.execXoFail s
  | .ircFail => Sys2Proof.Machine.execIrcFail s
  | .ircRecovery => Sys2Proof.Machine.execIrcRecovery s
  | .lxoFail => Sys2Proof.Machine.execLxoFail s
  | .lxoRecovery => Sys2Proof.Machine.execLxoRecovery s
  | .thiWrap => Sys2Proof.Machine.execThiWrap s
  | .powerOn => Sys2Proof.Machine.execPowerOn s
  | .brownVdd => Sys2Proof.Machine.execBrownVdd s
  | .brownVio => Sys2Proof.Machine.execBrownVio s
  | .brownVdda => Sys2Proof.Machine.execBrownVdda s
  | .pin lowNs => Sys2Proof.Machine.execPin lowNs s
  | .watchdog => Sys2Proof.Machine.execWatchdog s
  | .software => Sys2Proof.Machine.execSoftware s
  | .debug => Sys2Proof.Machine.execDebug s
  | .debugHalt => Sys2Proof.Machine.execDebugHalt s
  | .clockFail => Sys2Proof.Machine.execClockFail s
  | .lockupPurser => Sys2Proof.Machine.execLockupPurser s
  | .lockupPilot => Sys2Proof.Machine.execLockupPilot s
  | .resetRelease => Sys2Proof.Machine.execResetRelease s
  | .ckWake port => Sys2Proof.Machine.execCkWake port s
  | .wakePin => Sys2Proof.Machine.execWakePin s
  | .powerUp strap failedCheck ckEdgeSeen => Sys2Proof.Machine.execPowerUp strap failedCheck ckEdgeSeen s
  | .firmwareBoot => Sys2Proof.Machine.execFirmwareBoot s
  | .powerDown => Sys2Proof.Machine.execPowerDown s
  | .handover vbat => Sys2Proof.Machine.execHandover vbat s
  | .vbatReturn vbat => Sys2Proof.Machine.execVbatReturn vbat s
  | .hoTimeout => Sys2Proof.Machine.execHoTimeout s
  | .handoverReturn => Sys2Proof.Machine.execHandoverReturn s
  | .vbatHigh vbat => Sys2Proof.Machine.execVbatHigh vbat s
  | .vbatHighRelease vbat => Sys2Proof.Machine.execVbatHighRelease vbat s
  | .finEdge n level stamp cycles partnerToo => Sys2Proof.Machine.execFinEdge n level stamp cycles partnerToo s
  | .finStopped n => Sys2Proof.Machine.execFinStopped n s
  | .encoderRead p => Sys2Proof.Machine.execEncoderRead p s
  | .encoderReadEnd p r => Sys2Proof.Machine.execEncoderReadEnd p r s
  | .odoStop => Sys2Proof.Machine.execOdoStop s
  | .speedStale => Sys2Proof.Machine.execSpeedStale s
  | .watch => Sys2Proof.Machine.execWatch s
  | .cast c => Sys2Proof.Machine.execCast c s
  | .armatureDip c => Sys2Proof.Machine.execArmatureDip c s
  | .closeLanding c => Sys2Proof.Machine.execCloseLanding c s
  | .valveLanding v => Sys2Proof.Machine.execValveLanding v s
  | .boostGrant b => Sys2Proof.Machine.execBoostGrant b s
  | .boostEnd c filtered => Sys2Proof.Machine.execBoostEnd c filtered s
  | .peakEnd c => Sys2Proof.Machine.execPeakEnd c s
  | .offComplete c => Sys2Proof.Machine.execOffComplete c s
  | .offwaitEnd c => Sys2Proof.Machine.execOffwaitEnd c s
  | .bnrwaitExpiry b => Sys2Proof.Machine.execBnrwaitExpiry b s
  | .boostReady vbst => Sys2Proof.Machine.execBoostReady vbst s
  | .notReady vbst => Sys2Proof.Machine.execNotReady vbst s
  | .ov vbst => Sys2Proof.Machine.execOv vbst s
  | .startFail vbst => Sys2Proof.Machine.execStartFail vbst s
  | .pulsePeriodStart c => Sys2Proof.Machine.execPulsePeriodStart c s
  | .pulseOnEnd c => Sys2Proof.Machine.execPulseOnEnd c s
  | .olOff c => Sys2Proof.Machine.execOlOff c s
  | .sb c => Sys2Proof.Machine.execSb c s
  | .sg b named => Sys2Proof.Machine.execSg b named s
  | .otw b temp => Sys2Proof.Machine.execOtw b temp s
  | .ots b temp => Sys2Proof.Machine.execOts b temp s
  | .actuationCountSave => Sys2Proof.Machine.execActuationCountSave s
  | .periodStart k => Sys2Proof.Machine.execPeriodStart k s
  | .bootstrapRefresh v h => Sys2Proof.Machine.execBootstrapRefresh v h s
  | .calibration taps => Sys2Proof.Machine.execCalibration taps s
  | .fltTrip g active => Sys2Proof.Machine.execFltTrip g active s
  | .limitInput v e level => Sys2Proof.Machine.execLimitInput v e level s
  | .valveTimedEnd v => Sys2Proof.Machine.execValveTimedEnd v s
  | .homeTimeout v => Sys2Proof.Machine.execHomeTimeout v s
  | .brakeEnd v => Sys2Proof.Machine.execBrakeEnd v s
  | .positionUpdate => Sys2Proof.Machine.execPositionUpdate s
  | .loopSample l => Sys2Proof.Machine.execLoopSample l s
  | .loopWrite l computed => Sys2Proof.Machine.execLoopWrite l computed s
  | .ainConversion vin vref => Sys2Proof.Machine.execAinConversion vin vref s
  | .traceCapture b => Sys2Proof.Machine.execTraceCapture b s
  | .safetyInput p ch level both => Sys2Proof.Machine.execSafetyInput p ch level both s
  | .discrepancyFault p => Sys2Proof.Machine.execDiscrepancyFault p s
  | .run10 p => Sys2Proof.Machine.execRun10 p s
  | .musterSample => Sys2Proof.Machine.execMusterSample s
  | .musterExpiry => Sys2Proof.Machine.execMusterExpiry s
  | .recordCommit => Sys2Proof.Machine.execRecordCommit s
  | .recordsLost => Sys2Proof.Machine.execRecordsLost s
  | .optimeStep => Sys2Proof.Machine.execOptimeStep s
  | .rateWindowEnd => Sys2Proof.Machine.execRateWindowEnd s
  | .nonceExpiry src => Sys2Proof.Machine.execNonceExpiry src s
  | .authExpiry src => Sys2Proof.Machine.execAuthExpiry src s
  | .lockoutEnd src => Sys2Proof.Machine.execLockoutEnd src s
  | .calEnd => Sys2Proof.Machine.execCalEnd s
  | .id ln => Sys2Proof.Machine.execId ln s
  | .state ln => Sys2Proof.Machine.execState ln s
  | .get ln paths => Sys2Proof.Machine.execGet ln paths s
  | .set ln pairs => Sys2Proof.Machine.execSet ln pairs s
  | .pwmDisWrite ln value => Sys2Proof.Machine.execPwmDisWrite ln value s
  | .pwmDutyWrite ln k value => Sys2Proof.Machine.execPwmDutyWrite ln k value s
  | .ptgtWrite ln v value => Sys2Proof.Machine.execPtgtWrite ln v value s
  | .vselWrite ln value => Sys2Proof.Machine.execVselWrite ln value s
  | .ownerKeyWrite ln k value => Sys2Proof.Machine.execOwnerKeyWrite ln k value s
  | .counterClear ln path value => Sys2Proof.Machine.execCounterClear ln path value s
  | .tune ln path value => Sys2Proof.Machine.execTune ln path value s
  | .commit ln => Sys2Proof.Machine.execCommit ln s
  | .abort ln => Sys2Proof.Machine.execAbort ln s
  | .save ln => Sys2Proof.Machine.execSave ln s
  | .saveReach ln => Sys2Proof.Machine.execSaveReach ln s
  | .imageList ln => Sys2Proof.Machine.execImageList ln s
  | .imageOpen ln slot size => Sys2Proof.Machine.execImageOpen ln slot size s
  | .imageData ln offset data => Sys2Proof.Machine.execImageData ln offset data s
  | .imageClose ln => Sys2Proof.Machine.execImageClose ln s
  | .imageCancel ln => Sys2Proof.Machine.execImageCancel ln s
  | .imageRetire ln slot => Sys2Proof.Machine.execImageRetire ln slot s
  | .imageAcceptUntested ln => Sys2Proof.Machine.execImageAcceptUntested ln s
  | .reset ln level => Sys2Proof.Machine.execReset ln level s
  | .anchor ln => Sys2Proof.Machine.execAnchor ln s
  | .moor ln => Sys2Proof.Machine.execMoor ln s
  | .arm ln => Sys2Proof.Machine.execArm ln s
  | .go ln => Sys2Proof.Machine.execGo ln s
  | .halt ln => Sys2Proof.Machine.execHalt ln s
  | .killLine ln => Sys2Proof.Machine.execKillLine ln s
  | .resume ln => Sys2Proof.Machine.execResume ln s
  | .openVerb ln chans => Sys2Proof.Machine.execOpenVerb ln chans s
  | .close ln chans => Sys2Proof.Machine.execClose ln chans s
  | .pulse ln chans f d p => Sys2Proof.Machine.execPulse ln chans f d p s
  | .home ln chans target => Sys2Proof.Machine.execHome ln chans target s
  | .drive ln ch duty => Sys2Proof.Machine.execDrive ln ch duty s
  | .cross ln ch pos action crossId duty flags => Sys2Proof.Machine.execCross ln ch pos action crossId duty flags s
  | .recallOne ln ch crossId => Sys2Proof.Machine.execRecallOne ln ch crossId s
  | .recallChannelAll ln ch => Sys2Proof.Machine.execRecallChannelAll ln ch s
  | .recallAll ln => Sys2Proof.Machine.execRecallAll ln s
  | .shut ln chans => Sys2Proof.Machine.execShut ln chans s
  | .free ln chans => Sys2Proof.Machine.execFree ln chans s
  | .speed ln v w => Sys2Proof.Machine.execSpeed ln v w s
  | .time ln => Sys2Proof.Machine.execTime ln s
  | .timeSet ln date => Sys2Proof.Machine.execTimeSet ln date s
  | .muster ln t paths => Sys2Proof.Machine.execMuster ln t paths s
  | .musterRecall ln t => Sys2Proof.Machine.execMusterRecall ln t s
  | .traceStatus ln b => Sys2Proof.Machine.execTraceStatus ln b s
  | .traceArm ln b => Sys2Proof.Machine.execTraceArm ln b s
  | .traceForce ln b => Sys2Proof.Machine.execTraceForce ln b s
  | .traceStop ln b => Sys2Proof.Machine.execTraceStop ln b s
  | .traceDump ln b idx => Sys2Proof.Machine.execTraceDump ln b idx s
  | .log ln seq count => Sys2Proof.Machine.execLog ln seq count s
  | .auth ln => Sys2Proof.Machine.execAuth ln s
  | .authResponse ln response => Sys2Proof.Machine.execAuthResponse ln response s
  | .clearLog ln => Sys2Proof.Machine.execClearLog ln s
  | .clearFlt ln g => Sys2Proof.Machine.execClearFlt ln g s
  | .clearChannels ln chans => Sys2Proof.Machine.execClearChannels ln chans s
  | .helm ln => Sys2Proof.Machine.execHelm ln s
  | .enum ln => Sys2Proof.Machine.execEnum ln s
  | .adopt ln serial n => Sys2Proof.Machine.execAdopt ln serial n s
  | .lockConsole ln => Sys2Proof.Machine.execLockConsole ln s
  | .lockNone ln => Sys2Proof.Machine.execLockNone ln s
  | .queryList ln => Sys2Proof.Machine.execQueryList ln s
  | .queryVerb ln verb => Sys2Proof.Machine.execQueryVerb ln verb s
  | .queryPath ln path => Sys2Proof.Machine.execQueryPath ln path s
  | .vbatGood vbat vhld => Sys2Proof.Machine.execVbatGood vbat vhld s
  | .choppingPeriod c current => Sys2Proof.Machine.execChoppingPeriod c current s
  | .vgdUndervoltage recovered => Sys2Proof.Machine.execVgdUndervoltage recovered s
  | .bootstrapUndervoltage v h recovered => Sys2Proof.Machine.execBootstrapUndervoltage v h recovered s

end Sys2Proof.Machine
end

