-- ==== Sys2Proof/Machine/Schedule.lean ====
section
/-! DEFINITION. The passing of time: which commands fall due by themselves in the present microsecond, and what one microsecond
changes (chapters 3 to 15). Nothing here is a row of the table; the step turns to it when no command waits. -/
namespace Sys2Proof.Machine

open Sys2Proof

/-! ### Commands that are due -/

/-- A command, where a condition holds. -/
def dueIf (b : Bool) (i : Instr) : List Instr := if b then [i] else []

/-- The crossing engine: the watch at each whole 100 µs of chain time, where it has something to do, decided casts, and landings counted from a
cast. -/
def State.dueCrossings (s : State) : List Instr :=
  dueIf (s.coreUp && (s.domainOn 101 || s.unit.st.casting) && decide (s.now % 100 = 0) && decide (s.engine.lastWatch ≠ some s.time)) .watch ++
  (allChans.filter fun c => s.lanesRun && match (s.engine.chans[c]).decided with
    | k :: _ => s.reached k.ts
    | [] => false).map .cast ++
  (allSol.filter fun c => s.coreUp && (s.engine.chans[chS c]).landingDue s).map .closeLanding ++
  (allValves.filter fun v => s.coreUp && (s.engine.chans[chV v]).landingDue s).map .valveLanding

/-- The solenoid stage: grants, phase ends, pulse periods, chopping periods and dips; a coil's current is the one a command told last (log 88). -/
def State.dueSolenoids (s : State) : List Instr :=
  (allSol.filter s.periodDue).map .pulsePeriodStart ++
  (allSol.filter s.onEndDue).map .pulseOnEnd ++
  ((allSol.filter fun c => decide ((s.sol.chans[c]).phase = .boost) && s.reached (s.sol.chans[c]).phaseEnd).map fun c =>
    .boostEnd c (s.sol.chans[c]).imeas.toNat) ++
  ((allSol.filter s.chopDue).map fun c => .choppingPeriod c (s.sol.chans[c]).coil) ++
  (allSol.filter fun c => decide ((s.sol.chans[c]).phase = .peak) && s.reached (s.sol.chans[c]).phaseEnd).map .peakEnd ++
  (allSol.filter s.offwaitOver).map .offwaitEnd ++
  (allBanks.filter fun b => match (s.sol.banks[b]).holder, (s.sol.banks[b]).waitUntil with
    | some c, some t => decide ((s.sol.chans[c]).phase = .bnrwait) && s.reached t
    | _, _ => false).map .bnrwaitExpiry ++
  (allBanks.filter fun b => (s.sol.banks[b]).holder.isNone && !(s.sol.banks[b]).queue.isEmpty).map .boostGrant ++
  (allSol.filter s.dipDue).map .armatureDip ++
  dueIf (s.sol.boost.rdy && s.inBand s.sol.boost.vmeas && allSol.any fun c => decide ((s.sol.chans[c]).phase = .bnrwait))
    (.boostReady s.sol.boost.vmeas) ++
  dueIf (s.sol.boost.run && !s.sol.boost.ov && s.overVolts s.sol.boost.vmeas) (.ov s.sol.boost.vmeas) ++
  dueIf s.startFailDue (.startFail s.sol.boost.vmeas)

/-- Whether a slice's period starts with the first tick of the present microsecond: what a tide or a line writes now reaches its shadow in
that cycle at the earliest (R311). One that is skipped does not start (R315). -/
def State.startsFirst (s : State) (i : Fin 12) : Bool :=
  match s.startDue i with
  | some t => decide ((s.pwm.slices[i]).endTick ≤ t) && decide (t ≤ 240 * s.clk)
  | none => false

/-- What comes before every write of its microsecond: the period starts (R311), and the samples of the loops, which latch their inputs and
coefficients (R349, R351). -/
def State.dueLatches (s : State) : List Instr :=
  ((List.finRange 12).filter s.startsFirst).map .periodStart ++ ((List.finRange 8).filter s.sampleDue).map .loopSample

/-- Slices and valves. -/
def State.dueValves (s : State) : List Instr :=
  ((List.finRange 12).filter fun i => (s.startDue i).isSome && !s.startsFirst i).map .periodStart ++
  (allValves.filter fun v => s.refreshDue v .a).map (.bootstrapRefresh · .a) ++
  (allValves.filter fun v => s.refreshDue v .b).map (.bootstrapRefresh · .b) ++
  (allValves.filter s.timedEndDue).map .valveTimedEnd ++
  (allValves.filter s.homeTimeoutDue).map .homeTimeout ++
  (allValves.filter fun v => match (s.pwm.valves[v]).brakeUntil with
    | some t => decide (t ≤ s.clk)
    | none => false).map .brakeEnd ++
  dueIf (decide (s.pwm.posDue ≤ s.clk)) .positionUpdate

/-- The pilot, which computes in time unless a command says otherwise, and the trace banks. -/
def State.duePilot (s : State) : List Instr :=
  ((List.finRange 8).filter fun l => match (s.pilot.loops[l]).writes with
    | o :: _ => decide (o.due ≤ s.clk)
    | [] => false).map (.loopWrite · true) ++
  (s.traceOrder.filter s.captureDue).map .traceCapture

/-- Safety pairs and motion timers. -/
def State.dueTimers (s : State) : List Instr :=
  (allPairs.filter fun p => s.coreUp && s.discrepDue p).map .discrepancyFault ++
  (allPairs.filter s.run10Due).map .run10 ++
  ((List.finRange 4).filter fun p => s.coreUp && s.domainOn (68 + p.val) && decide (s.encRole p ≠ 0) &&
    decide ((s.motion.encs[p]).due ≤ s.clk)).map .encoderRead ++
  dueIf (s.coreUp && s.motion.moving && decide (s.odoSource ≠ 13) && s.stopDue) .odoStop ++
  dueIf s.staleDue .speedStale

/-- Whether a deadline in the model's clock has come. -/
def State.past (s : State) (due : Option Nat) : Bool := match due with
  | some t => decide (t ≤ s.clk)
  | none => false

/-- The resets of a failed clock and of a pilot in lockup, the one of the higher Reach first (R84, R90). -/
def State.dueLockups (s : State) : List Instr :=
  let clock := dueIf (s.clockFailed && s.takesReset 9 (s.reachOf 9)) .clockFail
  let pilot := dueIf (s.coreUp && s.pilot.loops.toList.any fun x => decide (2 ≤ x.misses)) .lockupPilot
  if s.reachOf 9 < s.reachOf 11 then pilot ++ clock else clock ++ pilot

/-- Tides, domains, handover, resets and the chain's own timers. -/
def State.dueSystem (s : State) : List Instr :=
  dueIf s.releaseDue .resetRelease ++
  dueIf (s.coreUp && s.clocks.wrapDue) .thiWrap ++
  dueIf (s.checkerRuns && s.clocks.lxoOk && s.clocks.ircOk && s.clocks.lxoStopped) .lxoFail ++
  s.dueLockups ++
  dueIf (s.past (s.rst.soft.bind (·.due))) .software ++
  dueIf s.anchorOver .powerDown ++
  dueIf (allValves.any s.hoTimeUp) .hoTimeout ++
  dueIf s.returnDue .handoverReturn ++
  dueIf (s.handoverDue || s.lowDue) (.handover s.power.vbat) ++
  dueIf (s.coreUp && !s.power.switching.isEmpty && decide (s.power.groupDue ≤ s.clk)) .domainGroupOn ++
  dueIf (s.coreUp && s.tideDue) .tideApply ++
  dueIf (s.past s.chain.enumDue) .enumQuietExpiry ++
  dueIf (s.onChain && s.turnDue.isSome) .turnSweepTimeout ++
  dueIf (s.past (s.chain.helmReq.map (·.due))) .helmqExpiry ++
  dueIf (s.onChain && s.upGap && s.chain.enumDue.isNone && !s.chain.upQ.isEmpty) (.upInsertion [])

/-- The rate window that ends in the present CD08 cycle: an event of that cycle counts in the new one (R380). -/
def State.dueWindow (s : State) : List Instr := dueIf (s.recorder.windowOver s.cdUs) .rateWindowEnd

/-- Musters, the recorder, authorisations and the calendar. -/
def State.dueRecords (s : State) : List Instr :=
  dueIf (s.live && !s.mustersDue.isEmpty) .musterSample ++
  dueIf (s.manil.musters.any s.musterOver) .musterExpiry ++
  dueIf (!s.recorder.queue.isEmpty || s.recorder.repeatDue) .recordCommit ++
  dueIf (decide (0 < s.recorder.lost) && decide (s.recorder.queue.length < 32)) .recordsLost ++
  dueIf (decide (optimeStepUs ≤ s.recorder.optUs)) .optimeStep ++
  dueIf (decide (s.nvm.actSaved + 64 ≤ s.recorder.optime.toNat)) .actuationCountSave ++
  ([.chain, .console] : List Source).flatMap (fun src =>
    let a := s.owner.of src
    dueIf (s.past (a.nonce.map (·.2))) (.nonceExpiry src) ++ dueIf (s.past a.grant) (.authExpiry src) ++
      dueIf (decide (s.phase = .running) && s.past a.lockout) (.lockoutEnd src)) ++
  dueIf (s.coreUp && s.cal.endDue) .calEnd

/-- The line at the head of a queue. -/
def headLine (q : List QLine) : Option (Nat × Instr) :=
  match q with
  | x :: _ => match x.what with
    | .inl i => some (x.doneAt, i)
    | .inr _ => none
  | [] => none

/-- The next line to execute: of the two queues' heads the one that completed first, in the same microsecond the chain's (R212, log 89). -/
def State.dueLine (s : State) : List Instr :=
  if !s.live then []
  else match headLine s.manil.chainQ, headLine s.manil.conQ with
    | some (n, i), some (k, j) => if n ≤ k then [i] else [j]
    | some (_, i), none => [i]
    | none, some (_, j) => [j]
    | none, none => []

/-- Whether a command is a SET that clears flags. -/
def clearsFlags : Instr → Bool
  | .set _ pairs => pairs.any fun x => match (pathAddr x.1).bind pathInfo with
    | some i => decide (i.access = .w1c)
    | none => false
  | _ => false

/-- What happens by itself now, in the order in which it acts. -/
def State.dueEvents (s : State) : List Instr :=
  s.dueSystem ++ s.dueTimers ++ s.dueCrossings ++ s.dueSolenoids ++ s.dueValves ++ s.duePilot ++ s.dueRecords

/-- Every command that falls due by itself now, in the order in which they act: the lines of a microsecond before its events, so that a flag set
in the cycle of the write that clears it stays set (R12, log 90); period starts and samples before what a line or a tide writes (R311, R349,
R351), but after a line that clears flags; and the end of a rate window before what counts in the next (R380). -/
def State.dueCommands (s : State) : List Instr :=
  match s.dueLine with
  | [] => s.dueLatches ++ s.dueWindow ++ s.dueEvents
  | l => if l.any clearsFlags then l else s.dueLatches ++ l

/-! ### One microsecond -/

/-- Slewing adds or takes one CD00 cycle in every 100, so 0.01 µs in a microsecond, until nothing is left (R124). -/
def slewStep (slew : Int) : Int := clampZ (-16000000) 16000000 slew

/-- By how much the NCO that chain time counts in HOLDOVER and COAST runs away from the true time in this microsecond (R127, R128, Table
5.8): by what CLK.FOFS does not correct of the XO, or by the IRC; a free value, in HOLDOVER within 100 ppm, within 5 ppm where TRACK had stood for 60 s
and the ambient keeps within 2 °C, or on the IRC 2 ms per second, in COAST within 5 ppm. In UNSET it counts the microseconds of the reference in force
as they are, whatever that is off by (DESIGN CHOICE, log 22). -/
def State.driftStep (s : State) : Int :=
  let byXo := (Config.xoOffset s.clk).toInt - s.clocks.fofs.toInt
  match s.clocks.mode with
  | .holdover =>
    let most : Int := if 60000000 ≤ s.clocks.trackUs && Config.ambientSteady s.clk then 500 else 10000
    16 * if s.clocks.holdIrc then clampZ (-200000) 200000 (Config.ircOffset s.clk) else clampZ (-most) most byXo
  | .coast => 16 * clampZ (-500) 500 byXo
  | _ => 0

/-- The next microsecond of chain time, its fraction given; after its last value it continues from 0, and the wrap is due (R118). STR_TUSE counts
the microseconds that begin: one that a step of chain time leaves out or repeats counts for nothing (R208; DESIGN CHOICE, log 95). -/
def State.nextMicro (s : State) (frac : Nat) : State :=
  { s with
    time := s.time + 1
    clocks := { s.clocks with timeFrac := frac, wrapDue := s.clocks.wrapDue || s.atWrap }
    unit := if s.unit.st = .stranded then { s.unit with strUs := s.unit.strUs + 1 } else s.unit }

/-- Chain time moves on while the core runs (R118, R121, R124, R127). What the slew or the drift leaves short of a whole microsecond, or
beyond one, stays in the fraction. -/
def State.advanceTime (s : State) : State :=
  if !s.coreUp then s
  else
    let d := slewStep s.clocks.slew
    let f := ((s.clocks.timeFrac + timeUnit : Int) + d + s.driftStep).toNat
    let s1 : State := { s with clocks := { s.clocks with slew := s.clocks.slew - d } }
    if f < timeUnit then s1.modClk fun c => { c with timeFrac := f } else s1.nextMicro (f - timeUnit)

/-- Whether a microsecond of chain time has begun within the present one of the model's clock: a forward slew skips none (R124). -/
def State.microOwed (s : State) : Bool := s.coreUp && decide (timeUnit ≤ s.clocks.timeFrac)

/-- How long TRACK has stood; a holdover keeps how long it had at entry (Table 5.8). -/
def State.tickTrack (s : State) : State :=
  s.modClk fun c => { c with trackUs := match c.mode with
    | .track => c.trackUs + 1
    | .holdover => c.trackUs
    | _ => 0 }

/-- The offset of the XO while CK is the locked reference, averaged over 1 s (R127). -/
def State.learnOffset (s : State) : State :=
  if s.coreUp && decide (s.clocks.ref = .ck) && s.clocks.lock && s.clocks.xoStable then
    let sum := s.clocks.fofsSum + (Config.xoOffset s.clk).toInt
    if s.clocks.fofsN + 1 < 1000000 then s.modClk fun c => { c with fofsSum := sum, fofsN := s.clocks.fofsN + 1 }
    else s.modClk fun c => { c with fofs := z24 (roundDiv sum 1000000), fofsSum := 0, fofsN := 0 }
  else s

/-- A character of the UP buffer leaves: the frame or sequence it opens or goes on with is then under way, as Tables 6.2 and 6.3 give its
length (R140). -/
def Chain.drainOne (c : Chain) (x : ChainChar) (rest : List ChainChar) (time : Nat) : Chain :=
  let left := match x.toNat with
    | 0x101 => 121
    | 0x10B => 121
    | 0x102 => 0
    | 0x106 => 2
    | 0x107 => 2
    | 0x108 => 2
    | 0x109 => 2
    | 0x10A => 7
    | n => if n < 256 then c.upLeft - 1 else c.upLeft
  { c with upBuf := rest, upLeft := left, upBusy := c.upBusy + time, upWire := c.upWire ++ [.char x] }

/-- The UP buffer drains, a character in each character time, while nothing inserted is leaving (R140). Once it is empty and UP idle, nothing is
owed of a frame that was cut. -/
def Chain.drain (c : Chain) (time : Nat) : List ChainChar → Chain
  | [] => if c.upBusy < 4800 then { c with upLeft := 0 } else c
  | x :: rest => if c.upBusy < 4800 then (c.drainOne x rest time).drain time rest else c

/-- What stood on the wires has left, and a microsecond of what was inserted on UP. -/
def Chain.clearWires (c : Chain) : Chain := { c with upWire := [], dnWire := [], upBusy := c.upBusy - 4800 }

/-- What stood on the wires and on the console has left; the UP buffer drains where nothing is inserted (R140), to nowhere while the port's logic is
off (R28). -/
def State.clearWires (s : State) : State :=
  let s1 := ((s.modChain Chain.clearWires).modManil fun m => { m with conTx := [] }).modChain fun c => c.drain s.clocks.charTime c.upBuf
  if s.portOn s.chain.upPort then s1 else s1.modChain fun c => { c with upWire := [] }

/-- The operating time goes on by `step` of CD08 time, in 1/10^8 µs (R377). -/
def Recorder.tick (r : Recorder) (step : Nat) : Recorder :=
  let f := r.optFrac + step
  { r with optUs := r.optUs + f / 100000000, optFrac := f % 100000000 }

/-- What counts on CD08 counts: the calendar, and outside ANCHORED the operating time (R377, R391, R394, R396). -/
def State.tickCd08 (s : State) : State :=
  let step := s.cd08Step
  let s1 := ({ s with cd08 := s.cd08 + step } : State).modCal (·.tick step)
  if s.phase = .anchored then s1 else s1.modRec (·.tick step)

/-- Refusals left at the head of a queue are answered once the purser runs. -/
def State.flushRefused (s : State) : State :=
  if !s.live then s
  else
    let s1 := s.answerRefused .chain s.manil.chainQ
    s1.answerRefused .console s1.manil.conQ

/-- One microsecond passes. -/
def State.microsecond (s : State) : State :=
  let s1 : State := { s.tickCkout with clk := s.clk + 1, settle := 0 }
  s1.clearWires.advanceTime.learnOffset.tickTrack.tickSpread.tickBoost.compareCoils.sampleCoils.markBanks.tickCd08.flushRefused

/-- The most rounds of due commands in one microsecond. -/
def settleLimit : Nat := 64

/-- The next moment: the microsecond of chain time that a slew has brought in, or a microsecond of the model's clock. -/
def State.pass (s : State) : State :=
  if s.microOwed then ({ s with settle := 0 } : State).nextMicro (s.clocks.timeFrac - timeUnit) else s.microsecond

/-- The tick, where no command waits: what is due now joins the queue, in up to 64 rounds, and then a microsecond passes. -/
def State.tick (s : State) : State :=
  match s.dueCommands with
  | [] => s.pass
  | l => if s.settle < settleLimit then { s with settle := s.settle + 1, pending := l } else s.pass

end Sys2Proof.Machine
end

