-- ==== Sys2Proof/Machine/Step.lean ====
section
/-! DEFINITION. The step: the command at the front of the queue, or the passing of time. -/
namespace Sys2Proof.Machine

open Sys2Proof

/-- One step: the command at the front of `pending` runs on the state with the queue's rest. With no command waiting, time
passes: the commands that are due by themselves join the queue, and when none is due a microsecond goes by. -/
def step (s : State) : Host.Outcome State Fault Refusal :=
  match s.pending with
  | c :: rest => exec c { s with pending := rest }
  | [] => .next s.tick

/-- The table gives no row any bits, so no word spells a command and the state is unchanged. -/
def State.withFetchWord (s : State) (_nbits _w : Nat) : State := s

end Sys2Proof.Machine
end

