-- ==== Sys2Proof/Machine/Pins.lean ====
section
/-! DEFINITION. What the output pins show that no meaning reads back: the encoder clocks and their mirrors (chapter 9), CKOUT
(chapter 5), the console, attention and boost gate pins, the recirculation switches (chapter 11), and the reset state each holds until
the boot has ended (R28, R29, R94). An instant within the present microsecond is given in nanoseconds. -/
namespace Sys2Proof.Machine

open Sys2Proof

/-- Whether a pin has left its reset state (R28, R29, R94): the unit runs; a reset at any Reach, its boot, a power-up, a power-down's end and
ANCHORED hold every pin in it. -/
def State.pinsUp (s : State) : Bool := decide (s.phase = .running)

/-! ### Encoder ports (R225, R228, R229) -/

/-- ECKp (R225, R229): high but for the first half of each of the W + 2 clock periods of a read; high under role OFF and in reset. -/
def State.eck (s : State) (p : Fin 4) (ns : Nat) : Bool :=
  let e := s.motion.encs[p]
  let period := eckPeriodNs (fld (s.reg (Reg.encCfg p)) 6 4)
  let t := 1000 * (s.clk - e.fall) + ns
  !(s.pinsUp && s.domainOn (68 + p.val) && decide (s.encRole p ≠ 0) && e.reading
    && decide (t < (s.encWidth p + 2) * period) && decide (t % period < period / 2))

/-- Whether port p mirrors (R228). -/
def State.mirrors (s : State) (p : Fin 4) : Bool :=
  s.pinsUp && s.domainOn (68 + p.val) && bit (s.reg (Reg.encCfg p)) 21

/-- EPCp (R228): ECKp under MIRROR, else high. -/
def State.epc (s : State) (p : Fin 4) (ns : Nat) : Bool := !s.mirrors p || s.eck p ns

/-- EPDp (R228): EDIp, whose level is given, under MIRROR, else high. -/
def State.epd (s : State) (p : Fin 4) (edi : Bool) : Bool := !s.mirrors p || edi

/-! ### CKOUT (R116, R117) -/

/-- CKOUT at a tick of the present microsecond, in 1/4800 µs of the model's clock (R116, R117): high in the first half of each period, rounded down; for
a divisor of 1 the source itself, whose cycles the output's count from its start. After a tide that changes CLK.CKOUT the output before completes its high phase, and the new
one waits; low where it does not run. -/
def State.ckoutPin (s : State) (tick : Nat) : Bool :=
  let now : Bool := s.ckoutRuns (s.reg Reg.ckout)
    && s.ckoutHigh (s.reg Reg.ckout) tick
  s.pinsUp && match s.ckout.old with
    | some (w, until_) => if tick < until_ then s.clockOn (fld w 0 6) else now
    | none => now

/-! ### The converter (R288) -/

/-- BGATE (R36, R288, R400): high in the on-times of a converter that runs, its gate supply good, while no overvoltage holds it low. -/
def State.bgate (s : State) : Bool :=
  s.boostMayRun && s.sol.boost.run && !s.sol.boost.ov && !s.power.vgdLow && s.sol.boost.gate

/-! ### Solenoid channels (R281, R282, R299) -/

/-- Whether the recirculation switch of a channel is on: its leader conducts, or decays, slowly with the low side off; a channel that is idle has none. -/
def State.recircOn (s : State) (c : Fin 32) : Bool :=
  let ch := s.sol.chans[s.leaderOf c]
  s.pinsUp && s.domainOn c.val && decide (s.hsPath (bankOf c) ≠ .off) && !ch.lowSide &&
  match ch.phase with
  | .boost => decide (ch.chopDecay = .slow)
  | .peak => decide (ch.chopDecay = .slow)
  | .hold => decide (ch.chopDecay = .slow)
  | _ => ch.decaying && decide (ch.decay = .slow)

/-! ### The console and the chain pairs -/

/-- Whether CTX is driven: PD106 is on and the boot is over; else it shows the pull-up of its reset state (R28). -/
def State.ctxDriven (s : State) : Bool := s.pinsUp && s.domainOn 106

/-- Whether the gangway, or the port's own logic, PD104 or PD105, drives the three pairs of a port: in reset state X the pair's driver is off (R28,
Tables 1.4 and 2.3). -/
def State.pairsTaken (s : State) (p : Port) : Bool := s.gangwayOn || (s.coreUp && s.portOn p && !s.chain.released)

end Sys2Proof.Machine
end

