-- ==== Sys2Proof/Safety.lean ====
section
/-! DEFINITION. The terms the claims use: that a step answers a next state; that the unit's stores stay within the bounds the manual
gives them, the register file keeps its one form and the unit shows SAFE while a cause is set; and when a line is heard and let. -/
namespace Sys2Proof.Machine

open Sys2Proof

/-- A step neither faults nor is refused. -/
def Completes (o : Host.Outcome State Fault Refusal) : Prop := ∃ t, o = .next t

/-- A step answers a next state of which `P` holds. -/
def Answers (o : Host.Outcome State Fault Refusal) (P : State → Prop) : Prop := ∃ t, o = .next t ∧ P t

/-- At most 16 notices wait (R140). -/
def Chain.Bounded (c : Chain) : Prop := c.notices ≤ 16

/-- At most 4 tides are pending (R146) and at most 4 muster slots are taken (R194). -/
def Manil.Bounded (m : Manil) : Prop := m.tides.length ≤ 4 ∧ m.musters.length ≤ 4

/-- At most 16 (odometer, time) pairs are kept (R240). -/
def Motion.Bounded (m : Motion) : Prop := m.pairs.length ≤ 16

/-- At most 32 records wait and at most 4096 are committed (R374, R376). -/
def Recorder.Bounded (r : Recorder) : Prop := r.queue.length ≤ 32 ∧ r.nvm.length ≤ 4096

/-- A running unit with a SAFE cause set is in SAFE or in DRYDOCK (R206, Table 8.3). -/
def State.SafeHolds (s : State) : Prop :=
  s.phase = .running → s.unit.safe ≠ 0 → s.unit.st = .safe ∨ s.unit.st = .drydock

/-- The stores within their bounds and the register file in its one form. -/
structure State.Stores (s : State) : Prop where
  regs : RegFile.wf s.regs = true
  chain : s.chain.Bounded
  manil : s.manil.Bounded
  motion : s.motion.Bounded
  recorder : s.recorder.Bounded

/-- What every step keeps. -/
structure State.Sound (s : State) : Prop where
  stores : s.Stores
  safe : s.SafeHolds

/-! ### The chain -/

/-- What arrives at a port is taken in: the core runs and has taken an upstream port, the port's logic is on, and its receiver is aligned (R129,
R133, R156). -/
structure State.TakesIn (s : State) (p : Port) : Prop where
  onChain : s.onChain = true
  powered : s.portOn p = true
  aligned : (s.chain.port p).aligned = true

/-! ### Lines -/

/-- The line is heard now: firmware runs, no line of its source waits before it, it designates this unit, no reply waits for a muster, and no
RESET line waits for its reply to leave (R171, R181, R85). -/
structure State.Hears (s : State) (ln : LineHdr) : Prop where
  live : s.live = true
  first : s.manil.queue ln.src = []
  mine : s.verdict ln = .mine
  held : s.manil.held = []
  soft : s.rst.soft = none

/-- The line is let: no handover runs (R73), Table 8.6 allows it in the unit's state (R211), and a console line of the write class comes in
MOORED with the console not locked (R191, R192, R213). -/
structure State.Lets (s : State) (ln : LineHdr) (c : LineClass) (l : Legal) : Prop where
  handover : s.power.handover = none
  legal : l.allows s.judged = true
  owner : ln.src = .console → c = .write → s.judged = .moored ∧ s.manil.conLock = false

/-- A line that has its effect: the next state is one of which `P` holds, with the reply OK and this text on its way. -/
def Replies (o : Host.Outcome State Fault Refusal) (src : Source) (text : List Tok) (P : State → Prop) : Prop :=
  ∃ u, o = .next (u.reply src (.ok text) false) ∧ P u

/-- A line that does nothing but answer its refusal. -/
def Refuses (s : State) (o : Host.Outcome State Fault Refusal) (src : Source) (e : Err) : Prop :=
  o = .next (s.reply src (.err e) false)

/-! ### The rows of Table 8.6 -/

/-- Operands of the lines of Table 8.6, whichever a line takes. -/
structure LineArgs where
  path : RegAddr
  verb : String
  num : Nat
  m : Int
  n : Int
  chans : List ChanItem
  target : Option ValveEnd
  action : CrossAction
  slot : Slot
  data : List Byte
  date : DateArg

/-- The operands pass the checks that come before that of the state (Table 7.5): the path and the verb exist, and a block of an image has 32 bytes. -/
structure LineArgs.Ok (a : LineArgs) : Prop where
  path : (pathInfo a.path.toNat).isSome = true
  verb : a.verb ∈ verbs
  data : a.data.length = 32

/-- The lines of the read class that tell of the unit at any time, but in a handover. -/
def tellingLines (ln : LineHdr) : List Instr := [.helm ln, .enum ln, .time ln, .imageList ln]

/-- The lines of the write class that Table 8.6 lets in every state, but for MUSTER and ADOPT, which no console sends. -/
def openLines (ln : LineHdr) (a : LineArgs) : List Instr :=
  [.auth ln, .authResponse ln (a.data.take 6), .timeSet ln a.date, .killLine ln]

/-- The lines of MUSTER (R194, R196). -/
def musterLines (ln : LineHdr) (a : LineArgs) : List Instr :=
  [.muster ln { val := a.n } [.reg a.path], .musterRecall ln { val := a.n }]

/-- The forms of `?`, which Table 8.6 lets everywhere but in DRYDOCK. -/
def queryLines (ln : LineHdr) (a : LineArgs) : List Instr := [.queryList ln, .queryVerb ln a.verb, .queryPath ln (.reg a.path)]

/-- The other rows of Table 8.6, all of the write class: the states it marks Y, whether it shows 22 in DRYDOCK, and the row's lines. -/
def writeRows (ln : LineHdr) (a : LineArgs) : List (List UnitState × Bool × List Instr) :=
  let m : LineNum := { val := a.m }
  let n : LineNum := { val := a.n }
  [([.moored, .ready, .underway, .stranded, .safe], false,
      [.lockConsole ln, .lockNone ln, .tune ln (.reg a.path) n, .traceStatus ln n, .traceArm ln n, .traceForce ln n, .traceStop ln n,
       .traceDump ln m n, .recallOne ln m n, .recallChannelAll ln n, .recallAll ln, .shut ln a.chans, .free ln a.chans]),
   ([.moored, .ready, .underway, .safe], false,
      [.set ln [(.reg a.path, n)], .pwmDisWrite ln n, .pwmDutyWrite ln (Fin.ofNat 12 a.num) n, .ptgtWrite ln (Fin.ofNat 8 a.num) n,
       .vselWrite ln n, .ownerKeyWrite ln (Fin.ofNat 6 a.num) n, .counterClear ln (.reg a.path) n, .commit ln, .abort ln, .speed ln m n]),
   ([.moored], false, [.save ln, .saveReach ln]),
   ([.moored, .drydock], false,
      [.imageOpen ln a.slot n, .imageData ln n a.data, .imageClose ln, .imageCancel ln, .imageRetire ln a.slot]),
   ([.drydock], false, [.imageAcceptUntested ln]),
   ([.moored, .ready, .safe, .drydock], false, [.reset ln none, .reset ln (some n)]),
   ([.moored, .safe, .drydock], false, [.anchor ln]),
   ([.moored, .ready, .safe], false, [.moor ln]),
   ([.moored], true, [.arm ln]),
   ([.ready, .stranded], true, [.go ln]),
   ([.ready, .underway, .stranded], false, [.halt ln]),
   ([.moored, .safe], false, [.resume ln]),
   ([.ready], true,
      [.openVerb ln a.chans, .close ln a.chans, .pulse ln a.chans m n none, .home ln a.chans a.target, .drive ln m n]),
   ([.moored, .ready, .underway], true, [.cross ln m n a.action n (some m) none]),
   ([.moored, .safe], false, [.clearLog ln]),
   ([.moored, .ready, .safe], false, [.clearFlt ln { val := Nat.mod a.num 3 }, .clearChannels ln a.chans])]

/-- No handover and no limit action holds the outputs (Table 8.7). -/
structure State.Calm (s : State) : Prop where
  handover : s.power.handover = none
  limit : s.unit.limitAction = false

/-! ### What a command leaves alone -/

/-- The state without what a unit drives and tells. -/
def State.still (s : State) : State :=
  { s with chain := {}, power := {}, unit := {}, manil := { s.manil with conTx := [], conLine := [], conBad := false }, motion := {}
           engine := {}, sol := {}, pwm := {}, pilot := {}, safety := {}, recorder := {} }

/-- Two states that differ only in what a unit drives and tells. -/
structure Drives (z s : State) : Prop where
  eq : s.still = z.still

/-- The state without its outputs and what is told of them. -/
def State.firm (s : State) : State :=
  { s with chain := {}, power := { s.power with evt := 0 }, manil := { s.manil with conTx := [] }, engine := {}, sol := {}, pwm := {}
           recorder := {} }

/-- Two states that differ only in their outputs and what is told of them. -/
structure Steady (z s : State) : Prop where
  eq : s.firm = z.firm

/-! ### Safety pairs -/

/-- A pair whose channel changes to a level, the other channel's with it where the change comes in the same sample and its filter lets it (R360). -/
def Pair.changed (q : Pair) (ch : PairChannel) (level both : Bool) (clk : Nat) : Pair :=
  q.setLevel ch level (both && !q.bars (otherChannel ch) clk) clk

/-- Whether a pair with these levels reads stop on a channel: A low, or B low, high where INVB is 1 (R361). -/
def State.wouldStop (s : State) (p : Fin 4) (q : Pair) : Bool := !q.levelA || q.levelB == bit (s.reg (Reg.sfpCfg p)) 3

/-! ### Resets -/

/-- The state in which a reset of a cause at a Reach is asserted (R81, R87, R91): the unit is in reset, the cause and the level are held, and what
the Reach clears is cleared; every output then follows the keeper. -/
def State.asserts (s t : State) (cause level : Nat) : Prop :=
  t.phase = .inReset ∧ t.rst.cause = BitVec.ofNat 4 cause ∧ t.rst.level = level ∧ t.rst.assertedAt = s.cdUs ∧
  s.clk + 100 ≤ t.rst.holdUntil ∧ t.regs = (s.clearReach level).regs ∧ t.time = (s.clearReach level).time ∧
  t.clocks = (s.clearReach level).clocks ∧ t.manil.staged = [] ∧ t.manil.tides = [] ∧ t.manil.chainQ = [] ∧ t.manil.conQ = [] ∧
  t.rst.soft = none ∧ t.cal = s.cal ∧ t.nvm = s.nvm

/-- As `State.asserts`, by a source that asserts or by the RESET line that goes before it in the same CD08 cycle (R90). -/
def State.assertsFirst (s t : State) (cause level : Nat) : Prop :=
  s.asserts t (s.strongest cause level).1 (s.strongest cause level).2

/-- Whether that source, or the RESET line that goes before it, is taken (R90). -/
def State.takesFirst (s : State) (cause level : Nat) : Bool :=
  s.takesReset (s.strongest cause level).1 (s.strongest cause level).2

end Sys2Proof.Machine
end

