-- ==== Sys2Proof/Certificates/Slice0/Obligations.lean ====
section
/-! DEFINITION. The statements for the provers: what each family of commands does, what it leaves alone, and what every step keeps. Every
command answers a next state in every state; the statements of a command's effect say under which conditions it has that effect. -/
open Sys2Proof Sys2Proof.Machine

/-! ### The queue, and what every step keeps -/

/-- A step takes the command at the front of the queue and runs it on the state with the queue's rest (log entry 1: the queue is the model's own). -/
def Obligations.StepRunsTheFrontCommand : Prop :=
  ∀ (c : Instr) (rest : List Instr) (s : State), s.pending = c :: rest → step s = exec c { s with pending := rest }

/-- With no command waiting, a step lets time pass: the commands that are due by themselves join the queue, in at most 64 rounds; where none is due a
microsecond of the model's clock goes by, or first the microsecond of chain time that a forward slew has brought into it (log entry 2: the model's
choice). -/
def Obligations.IdleStepLetsTimePass : Prop :=
  ∀ s : State, s.pending = [] → Answers (step s) fun t =>
    (s.dueCommands ≠ [] → s.settle < 64 → t = { s with settle := s.settle + 1, pending := s.dueCommands }) ∧
    (s.dueCommands = [] ∨ 64 ≤ s.settle →
      (s.microOwed = false → t.clk = s.clk + 1) ∧
      (s.microOwed = true → t.clk = s.clk ∧ t.clocks.timeFrac = s.clocks.timeFrac - timeUnit ∧ t.time = s.time + 1))

/-- Every command answers a next state: the manual names none that stops the unit or has no meaning. -/
def Obligations.EveryCommandCompletes : Prop := ∀ (c : Instr) (s : State), Completes (exec c s)

/-- A command leaves the queue of waiting commands alone. -/
def Obligations.CommandsKeepTheQueue : Prop :=
  ∀ (c : Instr) (s t : State), s.Sound → exec c s = .next t → t.pending = s.pending

/-- Every step keeps the state sound: the stores within the manual's bounds (R140, R146, R194, R240, R374, R376), the register file in its one form,
and SAFE shown while a SAFE cause is set (R206). -/
def Obligations.StepKeepsTheStateSound : Prop := ∀ s t : State, s.Sound → step s = .next t → t.Sound

/-- The state after reset is sound. What a POWER ON reset leaves: every register of the file at the value its table gives after reset; chain time 0
and UNSET; no domain on; no KILL, no SAFE cause, no hold; nothing staged, queued or pending; RST.CAUSE with cause 1 and Reach 4. -/
def Obligations.ResetLeavesASoundState : Prop :=
  (State.reset.Sound) ∧
  (let s := State.reset
  (∀ a, s.reg a = resetValue a) ∧ s.time = 0 ∧ s.clocks.mode = .unset ∧ s.clocks.aligned = false ∧ (∀ d, s.domainOn d = false) ∧
  s.unit.kill = false ∧ s.unit.safe = 0 ∧ s.unit.shut = 0 ∧ s.rst.lastCause = w24 (1 + 16 * 4) ∧ s.manil.staged = [] ∧
  s.manil.tides = [] ∧ s.manil.musters = [] ∧ s.manil.chainQ = [] ∧ s.manil.conQ = [] ∧ s.chain.addr = 0 ∧
  (∀ c : Fin 40, (s.engine.chans[c]).manifest = []) ∧ s.pending = [])

/-! ### The chain (chapter 6) -/

/-- What is forwarded goes on in its direction of travel: from the upstream port on DN of the downstream one, from the downstream port on UP of the
upstream one, behind what the UP buffer of 1024 characters holds; a unit whose pairs all receive forwards nothing, and a pair whose port's logic
is off carries nothing (R28, R129, R139, R140, R156). A receiver that aligns, that loses alignment, and that takes in an invalid character (R133,
R134): nothing else of the unit changes but what is forwarded. At a receiver that is not aligned every character is invalid, and IDLE is forwarded
in its place. A unit inserts its own frames on UP in order, one at a time and each in a gap, between at least 2 IDLE before and 2 after, or 8
before where else more than 1024 characters would go without a run of 8; what arrives meanwhile enters the UP buffer of 1024; nothing else changes
but, where the frame is the reply of a RESET line, the reset that waits for it, and where it is a TURN, the sweep it answers (R85, R135, R140,
R153). A unit whose core does not run passes frames, sequences, whole or cut, and KILL on through its gangway and changes in nothing else (R163). -/
def Obligations.TheChainIsForwarded : Prop :=
  (∀ (s : State) (p : Port) (w : WireItem),
    (s.chain.released = true → s.forward p w = s) ∧
    (s.chain.released = false → p = s.chain.upPort → s.portOn s.chain.upPort.other = true →
      s.forward p w = { s with chain := { s.chain with dnWire := s.chain.dnWire ++ [w] } }) ∧
    (s.chain.released = false → p = s.chain.upPort → s.portOn s.chain.upPort.other = false → s.forward p w = s) ∧
    (s.chain.released = false → p ≠ s.chain.upPort → s.upFree = true → s.portOn s.chain.upPort = true →
      s.forward p w = { s with chain := { s.chain with upWire := s.chain.upWire ++ [w] } }) ∧
    (s.chain.released = false → p ≠ s.chain.upPort → s.upFree = true → s.portOn s.chain.upPort = false → s.forward p w = s) ∧
    (s.chain.released = false → p ≠ s.chain.upPort → s.upFree = false →
      s.forward p w = { s with chain := { s.chain with upBuf := (s.chain.upBuf ++ w.chars).take 1024 } })) ∧
  ((∀ (p : Port) (s : State), s.coreUp = true → s.portOn p = true →
    Answers (exec (.receiverAligned p) s) fun t =>
      t = { s with chain := s.chain.setPort p { s.chain.port p with aligned := true } }) ∧
  (∀ (p : Port) (s : State), s.coreUp = true → (s.chain.port p).aligned = true →
    Answers (exec (.alignmentLost p) s) fun t =>
      t = ({ s with
              chain := s.chain.setPort p { s.chain.port p with aligned := false, eAlign := satInc (s.chain.port p).eAlign } } :
            State).forwardIdle p 1) ∧
  (∀ (p : Port) (ch : ChainChar) (s : State), s.coreUp = true → s.portOn p = true → (s.chain.port p).aligned = true →
    0x10C < ch.toNat → s.farHelmAt p = false →
    Answers (exec (.invalidCharacter p ch) s) fun t =>
      t = ({ s with chain := s.chain.setPort p { s.chain.port p with eChar := satInc (s.chain.port p).eChar } } : State).forward p (.char ch)) ∧
  (∀ (p : Port) (ch : ChainChar) (s : State), s.coreUp = true → s.portOn p = true → (s.chain.port p).aligned = false →
    Answers (exec (.invalidCharacter p ch) s) fun t =>
      t = ({ s with chain := s.chain.setPort p { s.chain.port p with eChar := satAdd (s.chain.port p).eChar 1 } } : State).forwardIdle p 1)) ∧
  (∀ (arriving : List ChainChar) (u : UpItem) (rest : List UpItem) (s : State),
    s.onChain = true → s.upGap = true → s.chain.enumDue = none → s.chain.upQ = u :: rest →
    Answers (exec (.upInsertion arriving) s) fun t =>
      let n := (u.wire s.chain).chars.length
      let k := if 1024 < s.chain.upSince + n + 12 then 8 else 2
      t.chain = { s.chain with
        upWire := s.chain.upWire ++ List.replicate k (.char 0x100) ++ [u.wire s.chain] ++ List.replicate 2 (.char 0x100)
        upSince := if k = 8 then n + 2 else s.chain.upSince + n + 4
        upBusy := s.chain.upBusy + (k + n + 2) * s.clocks.charTime
        upQ := rest, upBuf := (s.chain.upBuf ++ arriving).take 1024
        outstanding := (s.chain.itemLeaves u).outstanding } ∧
      (n ≤ 1014 → t.chain.upSince + 8 ≤ 1024) ∧
      t = { s with chain := t.chain, rst := t.rst } ∧ (u.startsReset = false → t.rst = s.rst)) ∧
  (∀ (p : Port) (fr : FrameArrival) (s : State), s.gangwayOn = true →
    exec (.lineFrame p fr) s = .next { s with chain := { s.chain with
      dnWire := s.chain.dnWire ++ (if p = s.chain.gangwayUp then [frameWire fr] else [])
      upWire := s.chain.upWire ++ (if p = s.chain.gangwayUp then [] else [frameWire fr]) } } ∧
    exec (.kill p) s = .next { s with chain := { s.chain with
      dnWire := s.chain.dnWire ++ (if p = s.chain.gangwayUp then [.char 0x104] else [])
      upWire := s.chain.upWire ++ (if p = s.chain.gangwayUp then [] else [.char 0x104]) } } ∧
    (∀ seq : SeqArrival,
      exec (.tide seq) s = .next { s with chain := { s.chain with dnWire := s.chain.dnWire ++ [seq.wire 0x03] } } ∧
      exec (.timeSequence seq 0) s = .next { s with chain := { s.chain with dnWire := s.chain.dnWire ++ [seq.wire 0x0C] } } ∧
      exec (.turnSweep seq) s = .next { s with chain := { s.chain with upWire := s.chain.upWire ++ [seq.wire 0x0A] } }))

/-- A whole TIDE is forwarded and takes the writes staged before it; it is late where its target lies less than 2 ms or more than half the range
ahead, or chain time is UNSET (R144 to R146). One that finds four pending, or whose CRC fails, applies nothing; one cut short is forwarded with a
FRAME error. -/
def Obligations.TidesTakeWhatIsStaged : Prop :=
  (∀ (bytes data : List Byte) (s : State), s.TakesIn s.chain.upPort → SeqArrival.data (.whole bytes) 4 = some data → s.manil.tides.length < 4 →
    Answers (exec (.tide (.whole bytes)) s) fun t =>
      let target : Word := BitVec.ofNat 24 (leNat data)
      let ahead := (target - tlo s.time).toNat
      t.manil.staged = [] ∧
      t.manil.tides = s.manil.tides ++ [{
        seq := s.manil.tideCount
        due := if s.clocks.mode = .unset ∨ ahead < 2000 ∨ 8388607 < ahead then .late (s.clk + 2000) target else .atTime (after s.time ahead)
        writes := s.manil.staged }] ∧
      t.chain = (s.sendDn (.seq 3 bytes)).chain ∧
      t = { s with chain := t.chain
                   manil := { s.manil with staged := [], tides := t.manil.tides, tideCount := s.manil.tideCount + 1 } }) ∧
  (∀ (bytes : List Byte) (s : State), s.TakesIn s.chain.upPort → SeqArrival.isWhole (.whole bytes) 4 = true →
    (SeqArrival.data (.whole bytes) 4 = none ∨ 4 ≤ s.manil.tides.length) →
    Answers (exec (.tide (.whole bytes)) s) fun t =>
      t.manil.tides = s.manil.tides ∧ t.manil.staged = s.manil.staged ∧ t.regs = s.regs ∧ Drives s t) ∧
  (∀ (bytes : List Byte) (s : State), s.TakesIn s.chain.upPort →
    exec (.tide (.cut bytes)) s = .next ((s.sendDn (.seq 3 bytes)).frameError s.chain.upPort))

/-- At a tide's target its writes come into force in one step (R144): each register has the last value written to it and every other keeps its own,
but that SFPp.CFG of a pair with a function has EN set, and PWR.EN3 the bit of that pair's domain (R368). A late tide applies its writes too, sets
CHN.EVT.TIDELATE and sends its notice (R145; log 20). -/
def Obligations.TideAppliesItsWrites : Prop :=
  ∀ (x : PendingTide) (rest : List PendingTide) (s : State), s.coreUp = true → RegFile.wf s.regs = true → s.manil.tides = x :: rest →
    s.tideDue = true →
    Answers (exec .tideApply s) fun t =>
      t.manil.tides = rest ∧ t.manil.staged = s.manil.staged ∧ t.time = s.time ∧ t.cal = s.cal ∧ t.owner = s.owner ∧ t.nvm = s.nvm ∧
      let new (a : Nat) : Word := ((x.writes.reverse.find? fun w => decide (w.1.toNat = a)).map (·.2)).getD (s.reg a)
      (∀ a, (∀ p : Fin 4, a ≠ Reg.sfpCfg p) → a ≠ Reg.pwrEn 3 → t.reg a = new a) ∧
      (∀ p : Fin 4, t.reg (Reg.sfpCfg p) = (if fld (new (Reg.sfpCfg p)) 1 2 = 0 then new (Reg.sfpCfg p) else raise (new (Reg.sfpCfg p)) 0)) ∧
      (∀ p : Fin 4, bit (t.reg (Reg.pwrEn 3)) (8 + p.val) =
        (bit (new (Reg.pwrEn 3)) (8 + p.val) || decide (fld (new (Reg.sfpCfg p)) 1 2 ≠ 0))) ∧
      (∀ k : Fin 24, k.val < 8 ∨ 12 ≤ k.val → bit (t.reg (Reg.pwrEn 3)) k.val = bit (new (Reg.pwrEn 3)) k.val) ∧
      match x.due with
      | .atTime _ => t.chain.evt.getLsbD 9 = s.chain.evt.getLsbD 9 ∧ s.chain.upQ <+: t.chain.upQ
      | .late _ _ => t.chain.evt.getLsbD 9 = true ∧ (s.notice [.word "TIDE", .word "LATE"]).chain.upQ <+: t.chain.upQ

/-- MEASURE and its echoes (R147, R148): MEASURE is forwarded and echoed by one K.05 on UP, and keeps UP quiet for 20 ms; an echo whose round trip
exceeds the forwarding delay by at most 400 ns is counted; 8 valid ones give the hop's delay at the end of the quiet. ASSIGN and HOP (R149 to
R152): a whole one with END clear is taken once the echoes are judged. The unit keeps the delay D it brings as the hop delay of its upstream port.
It forwards D plus its forwarding delay plus CHN.DOWNHOP, or D where it has no valid CHN.DOWNHOP, and END where it is the end, which sends the
TURN; the enumeration is outstanding until that passes (R153). A HOP leaves the address alone and forwards the count plus 1. An ASSIGN gives the
count plus 1 as address and count, or with PIN the pinned address where it is greater, and sets PINFAIL where it is not greater; 128 gives address
0 with OVERFLOW; an armed unit keeps its address with ENUMKEPT. One with END set is forwarded and ignored. The flag ENUM, the armed unit that
finds 128 and the HOP that brings 128 are log 96. -/
def Obligations.EnumerationMeasuresAndNumbers : Prop :=
  ((∀ (bytes data : List Byte) (s : State), s.TakesIn s.chain.upPort → SeqArrival.data (.whole bytes) 7 = some data → s.chain.enumDue = none →
    Answers (exec (.enumMeasure (.whole bytes)) s) fun t =>
      t = { s with chain := { s.chain with
              dnWire := (s.sendDn (.seq 5 bytes)).chain.dnWire, upWire := s.chain.upWire ++ [.char 0x105]
              upBusy := s.chain.upBusy + s.clocks.charTime
              enumDue := some (s.clk + 20000), echoes := 0, echoSum := 0, echoHelm := false } }) ∧
  (∀ (fromHelm : Bool) (rt : Nat) (s : State), s.TakesIn s.downPort → s.chain.enumDue.isSome = true → s.clocks.rate ≠ 0 →
    s.fwdDelay ≤ rt → (rt - s.fwdDelay) * 1000 ≤ 400 * 4096 →
    Answers (exec (.enumEcho fromHelm rt) s) fun t =>
      t = { s with chain := { s.chain with
              echoes := s.chain.echoes + 1, echoSum := s.chain.echoSum + (rt - s.fwdDelay), echoHelm := fromHelm } }) ∧
  (∀ (due : Nat) (s : State), s.chain.enumDue = some due → due ≤ s.clk →
    Answers (exec .enumQuietExpiry s) fun t =>
      t.chain.enumDue = none ∧ (8 ≤ s.chain.echoes → t.chain.downHopValid = true ∧ t.chain.farHelm = s.chain.echoHelm ∧
        t.chain.downHop = BitVec.ofNat 16 ((s.chain.echoSum + s.chain.echoes) / (2 * s.chain.echoes))) ∧
      (s.chain.echoes < 8 → t.chain.downHopValid = false ∧ t.chain.farHelm = false) ∧ t = { s with chain := t.chain })) ∧
  ((∀ (bytes data : List Byte) (s : State), s.TakesIn s.chain.upPort → SeqArrival.data (.whole bytes) 7 = some data →
    (data.getD 0 0).toNat.testBit 7 = false →
    let func := (data.getD 0 0).toNat
    let count := (data.getD 1 0).toNat
    let d := leNat ((data.drop 2).take 3)
    let pin := s.regN Reg.chnPin
    let j := s.judgeEchoes.chain
    let isEnd := !j.downHopValid || j.farHelm
    let fwd := (if j.downHopValid = true then d + s.fwdDelay + j.downHop.toNat else d) % 2 ^ 24
    let gives := fun (t : State) (addr : Byte) (n : Nat) (evt : BitVec 12) =>
      t = { s with chain := t.chain } ∧ t.chain.addr = addr ∧ t.chain.evt = evt ∧ t.chain.hop = d ∧
      t.chain.outstanding = s.chain.outstanding ++ [{ crc := 0, seq := s.chain.sweepSeq + 1, isEnum := true, own := isEnd }] ∧
      t.chain.dnWire = (s.sendDn (.seq 5 (withCrc (BitVec.ofNat 8 (func + if isEnd = true then 128 else 0) :: BitVec.ofNat 8 n ::
        leBytes 3 fwd ++ [data.getD 5 0])))).chain.dnWire ∧
      (isEnd = true → t.chain.upQ = s.chain.upQ ++ [.seq 10 (withCrc (1 :: BitVec.ofNat 8 n :: leBytes 3 fwd ++ [if j.farHelm = true then 1 else 0]))]) ∧
      (isEnd = false → t.chain.upQ = s.chain.upQ)
    (func % 4 = 3 →
      Answers (exec (.enumHop (.whole bytes)) s) fun t => gives t s.chain.addr (Nat.min 128 (count + 1)) (raise s.chain.evt 5)) ∧
    (func % 4 = 2 → Answers (exec (.enumAssign (.whole bytes)) s) fun t =>
      (s.unit.st.armed = true → gives t s.chain.addr (Nat.min 128 (count + 1)) (raise (raise s.chain.evt 5) 8)) ∧
      (s.unit.st.armed = false → 128 ≤ count → gives t 0 128 (raise (raise s.chain.evt 5) 7)) ∧
      (s.unit.st.armed = false → count < 128 → func.testBit 6 = false ∨ pin = 0 →
        gives t (BitVec.ofNat 8 (count + 1)) (count + 1) (raise s.chain.evt 5)) ∧
      (s.unit.st.armed = false → count < 128 → func.testBit 6 = true → count < pin → gives t (BitVec.ofNat 8 pin) pin (raise s.chain.evt 5)) ∧
      (s.unit.st.armed = false → count < 128 → func.testBit 6 = true → pin ≠ 0 → pin ≤ count →
        gives t (BitVec.ofNat 8 (count + 1)) (count + 1) (raise (raise s.chain.evt 5) 6)))) ∧
  (∀ (bytes data : List Byte) (s : State), s.TakesIn s.chain.upPort → SeqArrival.data (.whole bytes) 7 = some data →
    (data.getD 0 0).toNat.testBit 7 = true →
    exec (.enumAssign (.whole bytes)) s = .next (s.sendDn (.seq 5 bytes)) ∧ exec (.enumHop (.whole bytes)) s = .next (s.sendDn (.seq 5 bytes))))

/-- The TURN of an enumeration and of a sweep (R152, R153): each is forwarded on UP, whatever its CRC, and the sweep it answers is no longer
outstanding; the TURN of an enumeration also ends the quiet and says whether the far hop delay is valid. A sweep that the unit itself ends is no
longer outstanding once its own TURN leaves (log 33). What a standby helm sends in their place is discarded with a FRAME error (R159). A TURN of
the unit's own goes out on UP, with BREAK before it where the link is lost and FREEEND is clear (R155). The downstream link (R154, R155, R167):
its loss clears LINK, sets LINKLOST and counts E_LINK, and the unit sends BREAK, unless FREEEND is set, and TURN for each outstanding sweep it had
passed on; its return sets LINK and LINKUP and clears FREEEND. Registers, chain time, the unit's state and the outputs stay. -/
def Obligations.TurnsFollowSweeps : Prop :=
  ((∀ (bytes data : List Byte) (s : State), s.TakesIn s.downPort → s.farHelmAt s.downPort = false → SeqArrival.data (.whole bytes) 7 = some data →
    Answers (exec (.turnEnum (.whole bytes)) s) fun t =>
      t.chain.upWire = (s.relayUp (.seq 10 bytes)).chain.upWire ∧ t.chain.upBuf = (s.relayUp (.seq 10 bytes)).chain.upBuf ∧
      t.chain.enumDue = none ∧
      t.chain.outstanding = (s.chain.turnPassed (·.isEnum)).outstanding ∧ t.chain.addr = s.chain.addr ∧
      (s.chain.upPort = .bow → t.chain.hopSValid = (data.getD 5 0).getLsbD 0 ∧ t.chain.hopB = s.chain.hopB) ∧
      (s.chain.upPort = .stern → t.chain.hopBValid = (data.getD 5 0).getLsbD 0 ∧ t.chain.hopS = s.chain.hopS) ∧
      t = { s with chain := t.chain }) ∧
  (∀ (bytes data : List Byte) (x : Sweep) (s : State), s.TakesIn s.downPort → s.farHelmAt s.downPort = false → SeqArrival.data (.whole bytes) 7 = some data →
    s.chain.outstanding.find? (fun y => decide (y.crc = data.getD 2 0 ∧ y.seq = data.getD 3 0) && !y.isEnum) = some x →
    Answers (exec (.turnSweep (.whole bytes)) s) fun t =>
      t = { s.relayUp (.seq 10 bytes) with
              chain := { (s.relayUp (.seq 10 bytes)).chain with outstanding := s.chain.outstanding.erase x } }) ∧
  (∀ (bytes : List Byte) (s : State), s.TakesIn s.downPort → s.farHelmAt s.downPort = false → SeqArrival.isWhole (.whole bytes) 7 = true →
    SeqArrival.data (.whole bytes) 7 = none →
    Answers (exec (.turnEnum (.whole bytes)) s) fun t =>
      t = ((s.relayUp (.seq 10 bytes)).enumTurned).crcError s.downPort) ∧
  (∀ (arriving : List ChainChar) (crc seq : Byte) (brk : Bool) (rest : List UpItem) (s : State),
    s.onChain = true → s.upGap = true → s.chain.enumDue = none → s.chain.upQ = s.chain.turnOf crc seq brk :: rest →
    Answers (exec (.upInsertion arriving) s) fun t =>
      t.chain.outstanding = s.chain.outstanding.eraseP (fun x => x.own && decide (x.crc = crc ∧ x.seq = seq) && !x.isEnum)) ∧
  (∀ (d : TurnDue) (s : State), s.onChain = true → s.turnDue = some d →
    Answers (exec .turnSweepTimeout s) fun t =>
      t = ({ s with chain := { s.chain with turnsDue := s.chain.turnsDue.erase d } } : State).sendTurn d.crc d.seq) ∧
  (∀ (seq : SeqArrival) (s : State), s.TakesIn s.downPort → s.farHelmAt s.downPort = true →
    exec (.turnEnum seq) s = .next (s.frameError s.downPort) ∧ exec (.turnSweep seq) s = .next (s.frameError s.downPort))) ∧
  (∀ (s : State) (crc seq : Byte),
    (s.chain.dnLink = false → s.chain.freeEnd = false →
      (s.sendTurn crc seq).chain.upQ = s.chain.upQ ++ [.seq 9 (withCrc [s.chain.addr]), .seq 10 (withCrc [2, s.chain.addr, crc, seq, 0, 2])]) ∧
    (s.chain.dnLink = true ∨ s.chain.freeEnd = true →
      (s.sendTurn crc seq).chain.upQ = s.chain.upQ ++ [.seq 10 (withCrc [2, s.chain.addr, crc, seq, 0, 0])]) ∧
    s.sendTurn crc seq = { s with chain := { s.chain with upQ := (s.sendTurn crc seq).chain.upQ } }) ∧
  ((∀ s : State, s.onChain = true → s.chain.dnLink = true →
    Answers (exec .downstreamLinkLost s) fun t =>
      t.chain.dnLink = false ∧ t.chain.evt.getLsbD 0 = true ∧
      t.chain.outstanding = s.chain.outstanding.map (fun x => if x.own then x else { x with isEnum := false, own := true }) ∧
      ((s.chain.outstanding.filter fun x => !x.own).flatMap fun x =>
        (if s.chain.freeEnd then [] else [s.chain.breakOf]) ++ [s.chain.turnOf x.crc x.seq (!s.chain.freeEnd)]) <:+ t.chain.upQ ∧
      (t.chain.port s.downPort).eLink = satInc (s.chain.port s.downPort).eLink ∧
      t = { s with chain := t.chain, recorder := t.recorder, manil := { s.manil with conTx := t.manil.conTx } }) ∧
  (∀ s : State, s.onChain = true → s.chain.dnLink = false →
    Answers (exec .downstreamLinkUp s) fun t =>
      t.chain.dnLink = true ∧ t.chain.freeEnd = false ∧ t.chain.evt.getLsbD 1 = true ∧
      t = { s with chain := t.chain, recorder := t.recorder, manil := { s.manil with conTx := t.manil.conTx } }))

/-- Helm swaps (R159 to R162): a request that meets none from the other port and may find a far helm is forwarded and pending for 100 ms; one that
meets a request from the other port is absorbed and granted for the same end; for different ends the one at the bow port is forwarded and replaces
the pending one, and the one at the stern port is absorbed and denied; a grant clears the request for its end and holds notices; a denial clears
it and sets SWAPDENIED (log 97); an expiry clears it. The loss and the return of the upstream port (R24, R156, R157, R162, R182, R207): on
HOLDOVER_ENTRY every pair receives, what waits on UP is lost, as are the sweeps outstanding (log 35), E_CKLOSS counts, and a unit UNDERWAY becomes
STRANDED; the port at which CK arrives, the bow port first, is taken, and held notices leave. -/
def Obligations.HelmSwapsTurnTheChain : Prop :=
  ((∀ (p e : Port) (bytes data : List Byte) (s : State), s.TakesIn p → SeqArrival.data (.whole bytes) 2 = some data →
    helmEnd (data.getD 0 0) = some e →
    let waits := fun t : State =>
      t.chain.helmReq = some { target := e, arrived := p, due := s.clk + 100000 } ∧
      t = { s.forward p (.seq 6 bytes) with chain := { (s.forward p (.seq 6 bytes)).chain with helmReq := t.chain.helmReq } }
    ((∀ r, s.chain.helmReq = some r → r.arrived = p) → s.chain.dnLink = true ∨ s.chain.farHelm = true ∨ p ≠ s.chain.upPort ∨ e = p →
      Answers (exec (.helmq p (.whole bytes)) s) waits) ∧
    ((∀ r, s.chain.helmReq = some r → r.arrived = p) → s.chain.dnLink = false → s.chain.farHelm = false → p = s.chain.upPort → e = p.other →
      Answers (exec (.helmq p (.whole bytes)) s) fun t =>
        t.chain.helmReq = s.chain.helmReq ∧ t.chain.evt = raise s.chain.evt 4 ∧ t.chain.dnWire = (s.sendDn (.seq 6 bytes)).chain.dnWire ∧
        t.chain.upQ = s.chain.upQ ++ [.seq 8 (withCrc [if e = .bow then 0 else 1])] ∧ t = { s with chain := t.chain }) ∧
    (∀ r, s.chain.helmReq = some r → r.arrived ≠ p →
      (r.target = e → exec (.helmq p (.whole bytes)) s = .next (s.sendBack p 7 e)) ∧
      (r.target ≠ e → p = .bow → Answers (exec (.helmq p (.whole bytes)) s) waits) ∧
      (r.target ≠ e → p = .stern → exec (.helmq p (.whole bytes)) s = .next ((s.sendBack p 8 e).chnEvt 4)))) ∧
  (∀ (p e : Port) (bytes data : List Byte) (s : State), s.TakesIn p → SeqArrival.data (.whole bytes) 2 = some data →
    helmEnd (data.getD 0 0) = some e →
    Answers (exec (.helmg p (.whole bytes)) s) fun t =>
      t.chain.swapHold = true ∧ (∀ r, t.chain.helmReq = some r → r.target ≠ e) ∧
      t = { s.forward p (.seq 7 bytes) with
              chain := { (s.forward p (.seq 7 bytes)).chain with swapHold := true, helmReq := t.chain.helmReq } }) ∧
  (∀ (p e : Port) (bytes data : List Byte) (s : State), s.TakesIn p → SeqArrival.data (.whole bytes) 2 = some data →
    helmEnd (data.getD 0 0) = some e →
    Answers (exec (.helmd p (.whole bytes)) s) fun t =>
      t.chain.evt.getLsbD 4 = true ∧ (∀ r, t.chain.helmReq = some r → r.target ≠ e) ∧
      t = { s.forward p (.seq 8 bytes) with
              chain := { (s.forward p (.seq 8 bytes)).chain with evt := t.chain.evt, helmReq := t.chain.helmReq } }) ∧
  (∀ (r : HelmReq) (s : State), s.chain.helmReq = some r → r.due ≤ s.clk →
    exec .helmqExpiry s = .next { s with chain := { s.chain with helmReq := none } })) ∧
  ((∀ s : State, s.coreUp = true → s.chain.released = false → s.unit.st ≠ .underway →
    Answers (exec .holdoverEntry s) fun t =>
      t.chain.released = true ∧ t.chain.upQ = [] ∧ t.chain.outstanding = [] ∧
      (t.chain.port s.chain.upPort).eCkLoss = satInc (s.chain.port s.chain.upPort).eCkLoss ∧ t.clocks.ref ≠ .ck ∧
      (s.clocks.mode = .unset → t.clocks.mode = .unset) ∧ (s.clocks.mode ≠ .unset → t.clocks.mode = .holdover) ∧
      t = { s with chain := t.chain, clocks := t.clocks, recorder := t.recorder, rst := t.rst }) ∧
  (∀ s : State, s.coreUp = true → s.chain.released = false → s.unit.st = .underway → s.Calm →
    Answers (exec .holdoverEntry s) fun t => t.chain.released = true ∧ t.unit.st = .stranded ∧ t.unit.strUsed = 0 ∧ t.unit.strUs = 0) ∧
  (∀ (bow stern : Bool) (s : State), s.coreUp = true → s.chain.released = true → (bow || stern) = true →
    Answers (exec (.upstreamPortTaken bow stern) s) fun t =>
      t.chain.released = false ∧ t.chain.upPort = (if bow then .bow else .stern) ∧ t.chain.swapHold = false ∧
      (s.chain.swapHold = true → t.chain.upQ = s.chain.upQ ++ s.chain.upHeld) ∧ t = { s with chain := t.chain, recorder := t.recorder }))

/-! ### Clocks and chain time (chapter 5) -/

/-- CK as the reference (R112, R113, R119, R128): a recognised rate makes CK the reference, not yet locked to, and turns HOLDOVER into COAST; lock
turns COAST and HOLDOVER into TRACK; a CK at no rate of Table 5.2 sets RATEBAD and is never the reference; the loss of the rate turns TRACK into
COAST with ALIGNED 0. The XO is taken at once where the IRC was the reference. Nothing but the clocks changes. Oscillators that fail and recover
(R109 to R111, R396): each failure sets its CLK.EVT flag and writes its record, and changes nothing else but the clocks; the failure of the LXO
also marks the calendar DRIFT. In ANCHORED the LXO stops undetected until it runs again. -/
def Obligations.ReferencesAndOscillators : Prop :=
  ((∀ (code : Fin 16) (s : State), s.coreUp = true → s.chain.released = false → s.clocks.rate = 0 → code ≠ 0 →
    Answers (exec (.rateRecognised code) s) fun t =>
      t.clocks.rate = code ∧ t.clocks.ref = .ck ∧ t.clocks.lock = false ∧
      t.clocks.mode = (if s.clocks.mode = .holdover then .coast else s.clocks.mode) ∧ t = { s with clocks := t.clocks }) ∧
  (∀ s : State, s.coreUp = true → s.chain.released = false → s.clocks.rate = 0 →
    exec (.rateRecognised 0) s = .next { s with clocks := { s.clocks with evt := raise s.clocks.evt 6 } }) ∧
  (∀ s : State, s.coreUp = true → s.clocks.rate ≠ 0 →
    Answers (exec .rateLost s) fun t =>
      t.clocks.rate = 0 ∧ t.clocks.ref ≠ .ck ∧ t.clocks.aligned = false ∧
      t.clocks.mode = (if s.clocks.mode = .track then .coast else s.clocks.mode) ∧ t = { s with clocks := t.clocks }) ∧
  (∀ s : State, s.coreUp = true → s.clocks.lock = false →
    Answers (exec .clpllLock s) fun t =>
      t.clocks.lock = true ∧ t.clocks.ref = s.clocks.ref ∧
      t.clocks.mode = (if s.clocks.ref = .ck ∧ (s.clocks.mode = .coast ∨ s.clocks.mode = .holdover) then .track else s.clocks.mode) ∧
      t = { s with clocks := t.clocks }) ∧
  (∀ s : State, s.coreUp = true → s.clocks.xoStable = false →
    Answers (exec .xoStable s) fun t =>
      t.clocks.xoStable = true ∧ t.clocks.ref = (if s.clocks.ref = .irc then .xo else s.clocks.ref) ∧ t = { s with clocks := t.clocks })) ∧
  ((∀ s : State, s.coreUp = true → s.clocks.xoStable = true →
    Answers (exec .xoFail s) fun t =>
      t.clocks.xoStable = false ∧ t.clocks.ref ≠ .xo ∧ t.clocks.evt.getLsbD 0 = true ∧ t.clocks.mode = s.clocks.mode ∧
      t = { s with clocks := t.clocks, recorder := (s.record 0x041 63 0).recorder }) ∧
  (∀ s : State, s.coreUp = true → s.clocks.ircOk = true → (s.clocks.lxoOk = true ∨ s.clocks.xoStable = true) →
    Answers (exec .ircFail s) fun t =>
      t.clocks.ircOk = false ∧ t.clocks.safetyOnXo = s.clocks.xoStable ∧ t.clocks.evt.getLsbD 1 = true ∧
      t = { s with clocks := t.clocks, recorder := (s.record 0x042 63 0).recorder }) ∧
  (∀ s : State, s.coreUp = true → s.clocks.ircOk = false → (s.clocks.lxoOk = true ∨ s.clocks.xoStable = true) →
    exec .ircRecovery s = .next { s with clocks := { s.clocks with ircOk := true, safetyOnXo := false } }) ∧
  (∀ s : State, s.coreUp = true → s.clocks.lxoOk = true → s.clocks.ircOk = true →
    Answers (exec .lxoFail s) fun t =>
      t.clocks.lxoOk = false ∧ t.clocks.lxoStopped = true ∧ t.clocks.evt.getLsbD 2 = true ∧ t.cal = { s.cal with drift := true } ∧
      t = { s with clocks := t.clocks, cal := t.cal, recorder := (s.record 0x043 63 0).recorder }) ∧
  (∀ s : State, s.coreUp = true → s.clocks.lxoOk = false → s.clocks.ircOk = true →
    exec .lxoRecovery s = .next { s with clocks := { s.clocks with lxoOk := true, lxoStopped := false } }) ∧
  (∀ s : State, s.phase = .anchored → s.clocks.lxoOk = true →
    exec .lxoFail s = .next { s with clocks := { s.clocks with lxoStopped := true } } ∧
    exec .lxoRecovery s = .next { s with clocks := { s.clocks with lxoStopped := false } }))

/-- Chain time wraps to 0 with THIWRAP and a record (R118): at its last value, or, where the microsecond has already taken it to 0, by the flag and
the record alone. Outside the wrap, a microsecond of a running core moves chain time on by 1 µs, by the part of at most one CD00 cycle in 100 that
is left to be slewed, taken in grains of 0.01 µs (R118, R124; log 31), and by what the NCO runs away: nothing while it follows CK, at most 5 ppm
in COAST, and in HOLDOVER at most 100 ppm, 5 ppm where TRACK had stood for 60 s and the ambient is steady, or 2 ms per second on the IRC (R127,
R128; log 22). No step is taken, and what falls short of a microsecond stays as its fraction. -/
def Obligations.ChainTimeRuns : Prop :=
  ((∀ s : State, s.coreUp = true → s.clocks.wrapDue = false → s.time = BitVec.allOnes 48 →
    Answers (exec .thiWrap s) fun t =>
      t.time = 0 ∧ t.clocks.evt.getLsbD 7 = true ∧
      t = { s with time := 0, clocks := t.clocks, recorder := ({ s with time := 0 } : State).record 0x046 63 0 |>.recorder }) ∧
  (∀ s : State, s.coreUp = true → s.clocks.wrapDue = true →
    Answers (exec .thiWrap s) fun t =>
      t.clocks.wrapDue = false ∧ t.clocks.evt.getLsbD 7 = true ∧
      t = { s with clocks := t.clocks, recorder := (s.record 0x046 63 0).recorder })) ∧
  (∀ s : State, s.coreUp = true → s.time ≠ BitVec.allOnes 48 →
    let t := s.advanceTime
    let d : Int := if s.clocks.slew < -16000000 then -16000000 else if 16000000 < s.clocks.slew then 16000000 else s.clocks.slew
    let e := s.driftStep
    (t.time = s.time ∨ t.time = s.time + 1) ∧
    t.heldTime = s.heldTime + timeUnit + d + e ∧ t.clocks.slew = s.clocks.slew - d ∧
    (s.clocks.mode ≠ .holdover → s.clocks.mode ≠ .coast → e = 0) ∧
    (s.clocks.mode = .coast → e.natAbs * 1000000 ≤ 5 * timeUnit) ∧
    (s.clocks.mode = .holdover → e.natAbs * 1000000 ≤ (if s.clocks.holdIrc = true then 2000 else 100) * timeUnit) ∧
    (s.clocks.mode = .holdover → s.clocks.holdIrc = false → 60000000 ≤ s.clocks.trackUs → Config.ambientSteady s.clk = true →
      e.natAbs * 1000000 ≤ 5 * timeUnit) ∧
    (s.clocks.slew = 0 → e = 0 → t.time = s.time + 1 ∧ t.clocks = s.clocks))

/-- TIME sequences (R122 to R124): one is forwarded unchanged in every case, and nothing more happens where CK is not the locked reference or the hop
delay is not valid. A whole one, with CK the locked reference, the hop delay valid and its rate code the recognised one, makes chain time TRACK
and ALIGNED, and CLK.TERR takes the difference; while UNSET, chain time takes the value; a difference of at most 2 µs is left to be slewed; a
larger one steps chain time, sets TIMESTEP and is recorded. Of another rate code it sets RATEBAD and is discarded, one whose CRC fails is a CRC
error with the flag TIMEBAD, and one cut short is a FRAME error. The sign and rounding of CLK.TERR, and a load in place of what is left of the
last slew, are log 31; what the first load after UNSET moves is log 78. -/
def Obligations.TimeSequencesAreLoaded : Prop :=
  (∀ (bytes data : List Byte) (sub : Byte) (s : State), s.TakesIn s.chain.upPort →
    SeqArrival.data (.whole bytes) 9 = some data → leNat (data.drop 7) = s.clocks.rate.val → s.clocks.ref = .ck → s.clocks.lock = true →
    s.hopValid = true →
    Answers (exec (.timeSequence (.whole bytes) sub) s) fun t =>
      let at4096 : Int := leNat (data.take 7) * 16 + s.chain.hop + ckCycles 90 s.clocks.rate.val - 16 * sub.toNat
      let d := signedDiff at4096 (roundDiv s.heldTime 390625)
      let loaded : ChainTime := BitVec.ofNat 48 ((at4096 % 2 ^ 60).toNat / 4096)
      t.clocks.mode = .track ∧ t.clocks.aligned = true ∧ t.clocks.terr = terrOf (roundDiv (d * 1000) 4096) ∧
      t.chain = (s.sendDn (.seq 12 bytes)).chain ∧
      (s.clocks.mode ≠ .unset → d.natAbs ≤ 8192 → t.time = s.time ∧ t.clocks.slew = 390625 * d ∧
        t = { s with chain := t.chain, clocks := t.clocks }) ∧
      (s.clocks.mode = .unset → t.time = loaded ∧ t.clocks.slew = 0 ∧ t.clocks.timeFrac = 390625 * ((at4096 % 2 ^ 60).toNat % 4096) ∧
        t.clocks.evt = s.clocks.evt ∧ t.recorder = s.recorder ∧ t.unit = s.unit ∧ t.regs = s.regs ∧ t.manil = s.manil) ∧
      (s.clocks.mode ≠ .unset → 8192 < d.natAbs → t.time = loaded ∧ t.clocks.slew = 0 ∧
        t.clocks.evt.getLsbD 4 = true ∧ t.regs = s.regs ∧ t.unit = s.unit ∧ t.manil = s.manil ∧ t.safety = s.safety)) ∧
  (∀ (bytes data : List Byte) (sub : Byte) (s : State), s.TakesIn s.chain.upPort →
    SeqArrival.data (.whole bytes) 9 = some data → leNat (data.drop 7) ≠ s.clocks.rate.val →
    Answers (exec (.timeSequence (.whole bytes) sub) s) fun t =>
      t = { s with chain := (s.sendDn (.seq 12 bytes)).chain
                   clocks := { s.clocks with evt := raise s.clocks.evt 6 } }) ∧
  (∀ (bytes data : List Byte) (sub : Byte) (s : State), s.TakesIn s.chain.upPort →
    SeqArrival.data (.whole bytes) 9 = some data → leNat (data.drop 7) = s.clocks.rate.val →
    s.clocks.ref ≠ .ck ∨ s.clocks.lock = false ∨ s.hopValid = false →
    exec (.timeSequence (.whole bytes) sub) s = .next (s.sendDn (.seq 12 bytes))) ∧
  (∀ (bytes : List Byte) (sub : Byte) (s : State), s.TakesIn s.chain.upPort → SeqArrival.isWhole (.whole bytes) 9 = true →
    SeqArrival.data (.whole bytes) 9 = none →
    Answers (exec (.timeSequence (.whole bytes) sub) s) fun t =>
      t.chain = ((s.sendDn (.seq 12 bytes)).crcError s.chain.upPort).chain ∧ t.clocks = { s.clocks with evt := raise s.clocks.evt 5 } ∧
      t = { s with chain := t.chain, clocks := t.clocks }) ∧
  (∀ (bytes : List Byte) (sub : Byte) (s : State), s.TakesIn s.chain.upPort →
    exec (.timeSequence (.cut bytes) sub) s = .next ((s.sendDn (.seq 12 bytes)).frameError s.chain.upPort))

/-! ### Resets, power-up and boot (chapters 3 and 4) -/

/-- Every source asserts its reset at the Reach the table in force gives its cause (R80, R85, R88), in a running unit; POWER ON does in every state
and clears the calendar (R394). A RESET line whose time has come in the same cycle goes before a source of a lower Reach, or of its own Reach and
a higher code (R90). A brown-out holds the assertion for as long as its rail is low, through POWER ON too (R38, R81); the watchdog acts no sooner
than RST.WDT, to 1 %, after its count started (R83); a brown-out of VDD in a handover leaves the record of its step 1 as the last (R77; log 60).
The release of a reset, which no failed clock holds any more (R81, R89, R91, R92; log 75): RST.CAUSE takes cause and level, a fused reach table
comes into force, so that the next reset still judged its Reach by the old one (log 23), and power-up or, after Reach 1, the firmware boot is
next, in one step (log 25). -/
def Obligations.ResetsAreAsserted : Prop :=
  ((∀ s : State, Answers (exec .powerOn s) fun t =>
    ({ s with cal := {}, clocks := {} } : State).asserts t 1 4 ∧ s.rst.activeUntil ≤ t.rst.holdUntil) ∧
  (∀ s : State, s.phase = .running →
    (Answers (exec .brownVdd s) fun t => s.cutHandover.assertsFirst t 2 4 ∧ s.clk + Config.railLowFor 2 s.clk ≤ t.rst.holdUntil) ∧
    (Answers (exec .brownVio s) fun t => s.assertsFirst t 3 (s.reachOf 3) ∧ s.clk + Config.railLowFor 3 s.clk ≤ t.rst.holdUntil) ∧
    (Answers (exec .brownVdda s) fun t => s.assertsFirst t 4 (s.reachOf 4) ∧ s.clk + Config.railLowFor 4 s.clk ≤ t.rst.holdUntil) ∧
    Answers (exec .lockupPurser s) (s.assertsFirst · 10 (s.reachOf 10)) ∧
    Answers (exec .lockupPilot s) (s.assertsFirst · 11 (s.reachOf 11)) ∧
    (s.rst.halted = false → s.rst.wdtSince + 990 * s.regN Reg.wdt ≤ s.clk → Answers (exec .watchdog s) (s.assertsFirst · 6 (s.reachOf 6))) ∧
    (∀ ns, 5000 ≤ ns → Answers (exec (.pin ns) s) (s.assertsFirst · 5 (s.reachOf 5))) ∧
    (∀ (x : SoftReset) (due : Nat), s.rst.soft = some x → x.due = some due → due ≤ s.clk →
      Answers (exec .software s) (s.asserts · 7 x.reach)) ∧
    (s.domainOn 112 = true → (s.unit.st = .moored ∨ s.unit.st = .drydock ∨ s.unit.st = .safe) →
      Answers (exec .debug s) (s.assertsFirst · 8 (s.reachOf 8)) ∧
      exec .debugHalt s = .next { s with rst := { s.rst with halted := true } }) ∧
    (s.clocks.ircOk = false → s.clocks.xoStable = false → Answers (exec .clockFail s) (s.assertsFirst · 9 (s.reachOf 9))))) ∧
  (∀ s : State, s.phase = .inReset → s.rst.holdUntil ≤ s.clk → s.clockFailed = false →
    Answers (exec .resetRelease s) fun t =>
      t.rst.lastCause = w24 (s.rst.cause.toNat + 16 * s.rst.level) ∧ t.rst.table = s.rst.fused.getD s.rst.table ∧
      t.phase = (if s.rst.fromStep = 0 then .boot else .powerUp) ∧
      t = { s with phase := t.phase, rst := t.rst, recorder := { s.recorder with window := t.recorder.window }
                   power := { s.power with wake := t.power.wake } })

/-- nRST (R82): low for less than 1 µs it has no effect; low for 5 µs or more it resets wherever R90 takes the source; a pulse between these does the
one or the other and nothing else. The assertion lasts as long as nRST stays low. A RESET line due in the same cycle may go before it (R90). -/
def Obligations.PinPulsesResetOrDoNothing : Prop :=
  ∀ (ns : Nat) (s : State),
    (ns < 1000 → exec (.pin ns) s = .next s) ∧
    (5000 ≤ ns → s.takesFirst 5 (s.reachOf 5) = true →
      Answers (exec (.pin ns) s) fun t => s.assertsFirst t 5 (s.reachOf 5) ∧ s.clk + ns / 1000 ≤ t.rst.holdUntil) ∧
    (1000 ≤ ns → ns < 5000 → s.takesFirst 5 (s.reachOf 5) = true →
      exec (.pin ns) s = .next s ∨
      Answers (exec (.pin ns) s) fun t => s.assertsFirst t 5 (s.reachOf 5) ∧ s.clk + ns / 1000 ≤ t.rst.holdUntil)

/-- A Reach 1 reset keeps the configuration, chain time, the odometer, the pairs and the holds, ends the purser's queues and staging, and leaves no
scheduled level open: DECIDED and CAST crossings end silently and SAFE causes stay (log 24; Table 4.3, R94, R220, R236). A reset at Reach 2 or
above returns every register of the file to its value after reset and clears the holds (R87, R220); kept at every Reach are the records in NVM,
what NVM saves, the owner key and the learned serial number. -/
def Obligations.ReachLevelsClearWhatTheyList : Prop :=
  (∀ s : State,
    let t := s.clearReach 1
    t.regs = s.regs ∧ t.time = s.time ∧ t.clocks = s.clocks ∧ t.motion.pos = s.motion.pos ∧ t.safety = s.safety ∧
    t.unit.shut = s.unit.shut ∧ t.unit.kill = s.unit.kill ∧ t.unit.safe = s.unit.safe ∧ t.manil.staged = [] ∧ t.manil.tides = [] ∧
    t.manil.chainQ = [] ∧ t.manil.musters = [] ∧ t.manil.conLock = s.manil.conLock ∧
    (∀ c : Fin 40, (t.engine.chans[c]).level = .closed ∧ (t.engine.chans[c]).cur = none ∧ (t.engine.chans[c]).decided = [] ∧
      ∀ x ∈ (t.engine.chans[c]).manifest, x.stale = true)) ∧
  (∀ (level : Nat) (s : State), 2 ≤ level → level ≤ 4 →
    let t := s.clearReach level
    (∀ a, t.reg a = resetValue a) ∧ t.time = 0 ∧ t.clocks.mode = .unset ∧ t.unit.shut = 0 ∧ t.unit.kill = false ∧ t.motion.pos = 0 ∧
    (∀ c : Fin 40, (t.engine.chans[c]).manifest = []) ∧ t.chain.addr = 0) ∧
  (∀ (level : Nat) (s : State),
    let t := s.clearReach level
    t.recorder.nvm = s.recorder.nvm ∧ t.nvm = s.nvm ∧ t.owner.key = s.owner.key ∧ t.owner.chain.lockout = s.owner.chain.lockout ∧
    t.chain.serial = s.chain.serial ∧ t.cal = s.cal)

/-- Power-up and boot (Tables 3.5 and 4.7, R91, R94, R100): power-up with its domains ends in the boot, with UP set, once no source of a reset is
active (R38, R81); a wake that finds no CK edge ends in ANCHORED again, with SPURWAKE set (R64); the strap is read after a reset at Reach 3 or 4
(R95). The boot ends in a running unit: after a reset at Reach 1 with its configuration kept (R94), after a power-up with the SAVEd one in force,
but for CON.BAUD and PD112, which the strap decides (R97, R190). With no self-test failed and no SAFE cause it is in MOORED, or in DRYDOCK where
no pair of images may run. -/
def Obligations.PowerUpLeadsToARunningUnit : Prop :=
  (∀ (strap : Fin 16) (check : Option Word) (seen : Bool) (s : State), s.phase = .powerUp → s.power.downUntil ≤ s.clk → s.rst.activeUntil ≤ s.clk →
    s.rst.fromReset = true →
    Answers (exec (.powerUp strap check seen) s) fun t => t.phase = .boot ∧ t.power.up = true ∧ t.boot.selfTest = check ∧ t.clk = s.clk ∧
      t.rst.strap = (if 3 ≤ s.rst.level then BitVec.ofNat 4 strap.val else s.rst.strap)) ∧
  (∀ (strap : Fin 16) (check : Option Word) (s : State), s.phase = .powerUp → s.power.downUntil ≤ s.clk → s.rst.activeUntil ≤ s.clk →
    s.rst.fromReset = false → s.power.pinToo = false → s.power.wake = .bow →
    Answers (exec (.powerUp strap check false) s) fun t => t.phase = .anchored ∧ t.power.evt.getLsbD 0 = true ∧ t.power.on = 0) ∧
  (∀ (strap : Fin 16) (check : Option Word) (s : State), s.phase = .powerUp → s.power.downUntil ≤ s.clk → s.rst.activeUntil ≤ s.clk →
    s.rst.fromReset = false →
    Answers (exec (.powerUp strap check true) s) fun t => t.phase = .boot ∧ t.power.up = true ∧ t.boot.selfTest = check ∧ t.clk = s.clk ∧
      t.rst.strap = s.rst.strap) ∧
  (∀ (strap : Fin 16) (check : Option Word) (seen : Bool) (s : State), s.phase = .powerUp → s.clk < s.power.downUntil ∨ s.clk < s.rst.activeUntil →
    exec (.powerUp strap check seen) s = .next s) ∧
  (∀ s : State, s.phase = .boot → s.rst.coldBoot = false →
    Answers (exec .firmwareBoot s) fun t =>
      t.phase = .running ∧ t.rst.coldBoot = false ∧ t.boot.fails = 0 ∧ t.regs = s.regs ∧ t.nvm.saved = s.nvm.saved ∧
      (s.boot.selfTest = none → s.unit.safe = 0 → s.Calm → (∀ p : Fin 4, s.pairFunc p = .generic) →
        (∀ g : Fin 3, bit (s.reg Reg.fltCfg) g.val = false) →
        t.unit.st = (match s.bootChoice with
          | .run _ _ _ => .moored
          | .dock _ => .drydock))) ∧
  (∀ s : State, s.phase = .boot → s.rst.coldBoot = true → RegFile.wf s.regs = true →
    Answers (exec .firmwareBoot s) fun t =>
      t.phase = .running ∧ t.rst.coldBoot = false ∧ t.boot.fails = 0 ∧ t.nvm.saved = s.nvm.saved ∧
      (∀ a, (∀ p : Fin 4, a ≠ Reg.sfpCfg p) → a ≠ Reg.pwrEn 3 → a ≠ Reg.pwrEn 4 →
        t.reg a = (if a = Reg.conBaud then s.reg a
          else ((s.nvm.saved.reverse.find? fun w => decide (a = w.1.toNat)).map (·.2)).getD (s.reg a))) ∧
      bit (t.reg (Reg.pwrEn 4)) 16 = !s.rst.strap.getLsbD 2 ∧
      (s.boot.selfTest = none → s.unit.safe = 0 → s.Calm → (∀ p : Fin 4, s.pairFunc p = .generic) →
        (∀ g : Fin 3, bit (s.reg Reg.fltCfg) g.val = false) →
        (∀ w ∈ s.nvm.saved, w.1.toNat ≠ Reg.fltCfg ∧ ∀ p : Fin 4, w.1.toNat ≠ Reg.sfpCfg p) →
        t.unit.st = (match s.bootChoice with
          | .run _ _ _ => .moored
          | .dock _ => .drydock)))

/-- Power-down and wakes (R61, R63, R66, Table 3.6): once PWR.ANCHOR_DLY is over the unit is ANCHORED with every domain off; an armed CK wake or WAKE
pin starts the power-up, and one that comes while the power-down runs sets WAKEDOWN; the gangway forwards at once, after a WAKE pin wake from the
end of power-up step 1, and from the end of the power-down where that is later; after a WAKE pin wake the bow port is its upstream side (log 73). -/
def Obligations.AnchoringAndWaking : Prop :=
  (∀ (due : Nat) (s : State), s.phase = .running → s.power.anchorDue = some due → due ≤ s.clk →
    Answers (exec .powerDown s) fun t =>
      t.phase = .anchored ∧ t.power.on = 0 ∧ t.power.wakeArmed = (s.reg Reg.pwrWake).setWidth 3 ∧ (∀ a, t.reg a = resetValue a) ∧
      t.nvm.saved = s.nvm.saved ∧ t.cal = s.cal) ∧
  (∀ (p : Port) (s : State), s.phase = .anchored → s.power.wakeArmed.getLsbD p.code = true →
    Answers (exec (.ckWake p) s) fun t =>
      t.phase = .powerUp ∧ t.power.wake = (match p with | .bow => .bow | .stern => .stern) ∧ t.chain.gangway = true ∧
      (s.clk < s.power.downUntil → t.power.evt.getLsbD 1 = true) ∧ t.regs = s.regs ∧
      t = { s with phase := .powerUp, power := t.power, rst := t.rst, chain := { s.chain with
            gangway := true, gangwayUp := p, gangwayFrom := Nat.max s.clk s.power.downUntil } }) ∧
  (∀ s : State, s.phase = .anchored → s.power.wakeArmed.getLsbD 2 = true →
    Answers (exec .wakePin s) fun t =>
      t.phase = .powerUp ∧ t.power.wake = .pin ∧ t.power.pinToo = true ∧
      t = { s with phase := .powerUp, power := t.power, rst := t.rst, chain := { s.chain with
            gangway := true, gangwayUp := .bow, gangwayFrom := Nat.max s.clk s.power.downUntil + 1000 } })

/-- VBAT and the hold-up supply (R59, R75, R76, R79): VBATGOOD is set at VBAT_LOW + 1.0 V, to 0.1 V; HLDOK is set from 90 % of HLD_V and cleared below
85 %, each to 2 % (R400; within a band a free value decides, log 99). Within a handover it also sets HOREPLUG, and the handover goes on (R75). A
VBAT that stays between its thresholds, or above the upper one with VBATGOOD set, changes nothing but the voltages seen. VBAT above 36 V (R36):
the keeper, in every state of the unit, holds every output off until VBAT has stayed below 35 V (each to 0.3 V, R400). That the converter stops
too, and that each entry is recorded where the recorder is powered, is log 83. The gate drive's supplies (R400, R406): VGD below its lockout turns
every gate off, BGATE among them, a low bootstrap its high side; only the marker of that supply changes. Domains come on in groups of at most 8,
in ascending order, one group every 25 µs (R56). -/
def Obligations.SuppliesAreWatched : Prop :=
  ((∀ (vbat vhld : Nat) (s : State), s.regN Reg.vbatLow + 11 ≤ vbat → s.Calm →
    Answers (exec (.vbatGood vbat vhld) s) fun t =>
      t.power.vbatGood = true ∧ t.power.vbat = vbat ∧ t.power.vhld = vhld ∧
      (92 * s.regN Reg.hldV ≤ 100 * vhld → t.power.hldOk = true) ∧ (100 * vhld < 83 * s.regN Reg.hldV → t.power.hldOk = false) ∧
      t.unit = s.unit ∧ t.regs = s.regs) ∧
  (∀ (vbat : Nat) (s : State), s.regN Reg.vbatLow + 11 ≤ vbat → s.power.vbatGood = false → s.power.handover.isSome = true →
    ∃ u : State, exec (.vbatReturn vbat) s = .next u.refresh ∧ u.power.vbatGood = true ∧ u.power.vbat = vbat ∧
      u.power.evt = raise s.power.evt 4 ∧ u.power.handover = s.power.handover ∧ u = { s with power := u.power }) ∧
  (∀ (vbat : Nat) (s : State), s.regN Reg.vbatLow + 11 ≤ vbat → s.power.vbatGood = false → s.Calm →
    Answers (exec (.vbatReturn vbat) s) fun t =>
      t.power.vbatGood = true ∧ (s.power.returnArmed = true → t.power.returnAt = some (s.clk + 50000)) ∧ t.unit = s.unit) ∧
  (∀ (vbat : Nat) (s : State), (s.power.vbatGood = true ∨ vbat < s.regN Reg.vbatLow + 9) →
    exec (.vbatReturn vbat) s = .next { s with power := s.power.seeVbat vbat (s.regN Reg.vbatLow) s.clk })) ∧
  ((∀ (vbat : Nat) (s : State), s.power.vbatOver = false → 360 < vbat → s.Calm →
    Answers (exec (.vbatHigh vbat) s) fun t =>
      t.power.vbatHigh = true ∧ t.power.vbatOver = true ∧ t.keeperHolds = true ∧ t.sol.boost.run = false ∧
      (s.coreUp = false → t.recorder = s.recorder) ∧ (∀ c : Fin 32, t.solDemand c = .off true) ∧ t.unit = s.unit ∧ t.regs = s.regs) ∧
  (∀ (vbat : Nat) (s : State), s.power.vbatHigh = true → vbat < 347 → s.Calm →
    Answers (exec (.vbatHighRelease vbat) s) fun t => t.power.vbatHigh = false ∧ t.unit = s.unit ∧ t.regs = s.regs)) ∧
  ((∀ (recovered : Bool) (s : State),
    exec (.vgdUndervoltage recovered) s = .next { s with power := { s.power with vgdLow := !recovered } }) ∧
  (∀ s : State, s.power.vgdLow = true → (∀ v : Fin 8, s.gates v = {}) ∧ s.bgate = false) ∧
  (∀ (v : Fin 8) (h : Half) (recovered : Bool) (s : State),
    Answers (exec (.bootstrapUndervoltage v h recovered) s) fun t =>
      (match h with
        | .a => (t.pwm.valves[v]).bootLowA = !recovered ∧ (recovered = false → (t.gates v).ha = false)
        | .b => (t.pwm.valves[v]).bootLowB = !recovered ∧ (recovered = false → (t.gates v).hb = false)) ∧
      t.pwm.slices = s.pwm.slices ∧ (∀ w, w ≠ v → t.pwm.valves[w] = s.pwm.valves[w]) ∧ t = { s with pwm := t.pwm })) ∧
  (∀ s : State, s.coreUp = true → s.power.switching ≠ [] → s.power.groupDue ≤ s.clk → (∀ d ∈ s.power.switching, d < 114) →
    Answers (exec .domainGroupOn s) fun t =>
      (∀ d ∈ s.power.switching.take 8, t.domainOn d = true) ∧ (∀ d, d ∉ s.power.switching.take 8 → t.domainOn d = s.domainOn d) ∧
      t.power.switching = s.power.switching.drop 8 ∧ t.regs = s.regs ∧ t.time = s.time)

/-- A handover starts when VBAT has stayed below VBAT_LOW, to 2 % and 0.1 V, for 200 µs (R59, R67 to R69, R400, Table 3.7): VBATGOOD is 0, a HANDOVER
record of the state left is committed with all that waited, PWR.HO_ACT and PWR.HO_TIME are latched, an ANCHOR wait is cancelled; crossings and the
unit's state stay until its steps 2 to 5, 0.8 ms on. These end every crossing, queue the notice and turn every coil off; with PWR.HLD_CFG.HLDEN 0
and no valve moving the unit is then in SAFE with cause HANDOVER (R72); HLDEN is read as in force (log 82), and SAFE waits for the last brake (log
29). While no core runs, or a handover runs already, VBATGOOD falls (log 28) and every output follows its demand; while VBAT is not low nothing
changes. Handover and limit runs that outlast their limit brake, with PWR.EVT.HOTIMEOUT, and every output then follows its demand (R70, R209); 50
ms of VBATGOOD after the handover's end clear its cause: a unit without another cause enters MOORED, one with another stays as it is, and what its
manifests hold is stale (R76, R206). Before their time neither changes anything. Runs are bounded by HO_TIME, limit runs with them (log 29). -/
def Obligations.HandoversEndInSafe : Prop :=
  ((∀ (vbat : Nat) (s : State), s.phase = .running →
    100 * vbat + 100 < 98 * s.regN Reg.vbatLow ∨ (s.lowDue = true ∧ vbat = s.power.vbat) → s.power.handover = none →
    Answers (exec (.handover vbat) s) fun t =>
      t.power.vbatGood = false ∧ t.power.anchorDue = none ∧ t.power.returnAt = none ∧
      t.power.handover = some { hoAct := s.reg Reg.hoAct, hoTime := s.regN Reg.hoTime, started := s.clk
                                inDrydock := decide (s.unit.st = .drydock)
                                mark := (s.record 0x006 63 (w24 s.unit.st.code)).recorder.next } ∧
      t.recorder.nvm = (s.record 0x006 63 (w24 s.unit.st.code)).recorder.held ∧ t.nvm.solAct = s.sol.chans.map (·.act) ∧
      t.nvm.mvAct = s.pwm.valves.map (·.act) ∧ t.unit = s.unit ∧ t.regs = s.regs ∧ t.time = s.time ∧ t.motion = s.motion) ∧
  (∀ (vbat : Nat) (s : State), s.handoverDue = true →
    ∃ u : State, exec (.handover vbat) s = .next u.refresh ∧
      u.power.handover = s.power.handover.map (fun h => { h with acting := true, faulted := h.faulted ||| s.faultedValves }) ∧
      (∀ c : Fin 40, (u.engine.chans[c]).level = .closed ∧ (u.engine.chans[c]).decided = []) ∧
      (∀ c : Fin 32, u.solDemand c = .off true) ∧ u.unit = s.unit ∧ u.sol = s.sol ∧ u.pwm = s.pwm ∧ Drives s u) ∧
  (∀ (vbat : Nat) (h : Handover) (s : State), s.handoverDue = true → s.power.handover = some h → h.inDrydock = false →
    bit (s.reg Reg.hldCfg) 0 = false → (∀ v : Fin 8, (s.pwm.valves[v]).run = none ∧ (s.pwm.valves[v]).brakeUntil = none) →
    Answers (exec (.handover vbat) s) fun t =>
      t.unit.st = .safe ∧ t.unit.safe.getLsbD 1 = true ∧ t.power.handover = none ∧ t.regs = s.regs ∧ t.time = s.time) ∧
  (∀ (vbat : Nat) (s : State), s.handoverDue = false → s.lowDue = false ∨ vbat ≠ s.power.vbat → 102 * s.regN Reg.vbatLow + 100 ≤ 100 * vbat →
    exec (.handover vbat) s = .next s) ∧
  (∀ (vbat : Nat) (s : State), s.handoverDue = false → 100 * vbat + 100 < 98 * s.regN Reg.vbatLow →
    s.phase ≠ .running ∨ s.power.handover.isSome = true →
    ∃ u : State, exec (.handover vbat) s = .next u.refresh ∧ u.power.vbatGood = false ∧ u.power.vbat = vbat ∧
      u.power.handover = s.power.handover ∧ u = { s with power := u.power })) ∧
  ((∀ (w : Fin 8) (s : State), s.hoTimeUp w = true →
    ∃ u : State, exec .hoTimeout s = .next u.refresh ∧ u.power.evt.getLsbD 2 = true ∧
      (∀ v : Fin 8, s.hoTimeUp v = true → (u.pwm.valves[v]).run = none ∧ (u.pwm.valves[v]).bridge = .brake ∧
        (u.pwm.valves[v]).brakeUntil = some (s.clk + 1000 * s.regN (Reg.mvBrake v))) ∧
      (∀ v : Fin 8, s.hoTimeUp v = false → u.pwm.valves[v] = s.pwm.valves[v]) ∧ u.sol = s.sol ∧ u.engine = s.engine ∧ Steady s u) ∧
  (∀ s : State, (∀ w : Fin 8, s.hoTimeUp w = false) → exec .hoTimeout s = .next s) ∧
  (∀ s : State, s.phase ≠ .running ∨ (∀ due ∈ s.power.returnAt, s.clk < due) → exec .handoverReturn s = .next s) ∧
  (∀ (due : Nat) (s : State), s.phase = .running → s.power.returnAt = some due → due ≤ s.clk → s.unit.st = .safe → drop s.unit.safe 1 = 0 →
    s.Calm →
    Answers (exec .handoverReturn s) fun t =>
      t.unit.st = .moored ∧ t.unit.safe = 0 ∧ t.power.returnAt = none ∧ t.regs = s.regs ∧
      (∀ c : Fin 40, ∀ x ∈ (t.engine.chans[c]).manifest, x.stale = true)) ∧
  (∀ (due : Nat) (s : State), s.phase = .running → s.power.returnAt = some due → due ≤ s.clk → drop s.unit.safe 1 ≠ 0 ∨ s.unit.st ≠ .safe →
    Answers (exec .handoverReturn s) fun t =>
      t.unit = { s.unit with safe := drop s.unit.safe 1 } ∧ t.power = { s.power with returnAt := none, returnArmed := false } ∧
      (∀ c : Fin 40, ∀ x ∈ (t.engine.chans[c]).manifest, x.stale = true) ∧
      t = { s with unit := t.unit, power := t.power, engine := { s.engine with chans := t.engine.chans } }))

/-! ### Ground motion and crossings (chapters 9 and 10) -/

/-- Pulse inputs that do not drive the odometer, whatever does (R221, R223, R224): an edge that follows the last by less than N samples changes
nothing; an accepted edge of an input of its own takes the level and counts where EDGE selects it, and measures the period unless it is the first
after a stop; in a quadrature pair each edge counts up or down on the even input, and a change of both counts nothing and sets the pair's error
flag. The direction alone may follow, where the source of the odometer is a single input (R237, R238). A running count beyond 0xFFFFFF stops the
input. The odometer (R233, R240): an edge that EDGE selects, of the pulse input that is its source, moves it by ODO.DPP in the direction in force
and latches one pair with the edge's stamp, of which the 16 newest are kept; one of another polarity moves nothing. Each single edge of a
quadrature pair that is the source moves it up or down as it counts, and one of both inputs moves nothing. -/
def Obligations.PulseInputsCountAndMove : Prop :=
  ((∀ (n : Fin 8) (level both : Bool) (stamp : ChainTime) (cycles : Nat) (s : State), s.finBars n = true →
    exec (.finEdge n level stamp cycles both) s = .next s) ∧
  (∀ (n : Fin 8) (level both : Bool) (stamp : ChainTime) (cycles : Nat) (s : State), s.coreUp = true → s.domainOn (72 + n.val) = true →
    (s.motion.fins[n]).level ≠ level → s.finBars n = false → s.quad (evenOf n).val = false → s.odoSource ≠ n.val + 1 →
    Answers (exec (.finEdge n level stamp cycles both) s) fun t =>
      let f := s.motion.fins[n]
      let g := t.motion.fins[n]
      let edge := fld (s.reg (Reg.finCfg n)) 12 2
      let high := xor level (bit (s.reg (Reg.finCfg n)) 14)
      let selected := edge = 0 ∧ high = true ∨ edge = 1 ∧ high = false ∨ 2 ≤ edge
      g.level = level ∧
      (selected → g.count = f.count + 1 ∧ g.stopped = false ∧ g.fresh = false ∧
        g.period = if f.fresh then f.period else BitVec.ofNat 24 (Nat.min 0xFFFFFF cycles)) ∧
      (¬selected → g = { f with level := level, edgeClk := some s.clk }) ∧ t.motion.fins = upd s.motion.fins n (fun _ => g) ∧
      t.motion.finEvt = s.motion.finEvt ∧
      (s.singleFin = true → s.domainOn 101 = true → fld (s.reg Reg.odoCfg) 4 2 = 2 →
        t.motion.dirRev = t.finLevel ⟨fld (s.reg Reg.odoCfg) 7 3 % 8, by omega⟩) ∧
      (s.singleFin = false ∨ s.domainOn 101 = false → t = { s with motion := { s.motion with fins := t.motion.fins } }) ∧
      t = { s with
        motion := { s.motion with
          fins := t.motion.fins, finEvt := t.motion.finEvt, dirRev := t.motion.dirRev, turn := t.motion.turn, evt := t.motion.evt }
        recorder := t.recorder, chain := t.chain, manil := { s.manil with conTx := t.manil.conTx } }) ∧
  (∀ (n : Fin 8) (level : Bool) (stamp : ChainTime) (cycles : Nat) (s : State), s.coreUp = true → s.domainOn (72 + n.val) = true →
    (s.motion.fins[n]).level ≠ level → s.finBars n = false → s.quad (evenOf n).val = true → s.odoSource ≠ (evenOf n).val + 1 →
    Answers (exec (.finEdge n level stamp cycles false) s) fun t =>
      let e := evenOf n
      let up := xor (if n = e then xor (t.finLevel e) (t.finLevel (oddOf n)) else t.finLevel e == t.finLevel (oddOf n))
        (bit (s.reg (Reg.finCfg e)) 16)
      (t.motion.fins[n]).level = level ∧ (t.motion.fins[e]).qdown = !up ∧
      (t.motion.fins[e]).count = (if up then (s.motion.fins[e]).count + 1 else (s.motion.fins[e]).count - 1) ∧
      t.motion.finEvt = s.motion.finEvt ∧
      (s.singleFin = false ∨ s.domainOn 101 = false → t = { s with motion := { s.motion with fins := t.motion.fins } }) ∧
      t = { s with
        motion := { s.motion with
          fins := t.motion.fins, finEvt := t.motion.finEvt, dirRev := t.motion.dirRev, turn := t.motion.turn, evt := t.motion.evt }
        recorder := t.recorder, chain := t.chain, manil := { s.manil with conTx := t.manil.conTx } }) ∧
  (∀ (n : Fin 8) (level : Bool) (stamp : ChainTime) (cycles : Nat) (s : State), s.coreUp = true → s.domainOn (72 + n.val) = true →
    (s.motion.fins[n]).level ≠ level → s.finBars n = false → s.finBars (mateOf n) = false → s.quad (evenOf n).val = true →
    Answers (exec (.finEdge n level stamp cycles true) s) fun t =>
      (t.motion.fins[evenOf n]).count = (s.motion.fins[evenOf n]).count ∧ t.motion.finEvt = raise s.motion.finEvt (8 + n.val / 2) ∧
      (s.singleFin = false ∨ s.domainOn 101 = false →
        t = { s with motion := { s.motion with fins := t.motion.fins, finEvt := t.motion.finEvt } }) ∧
      t = { s with
        motion := { s.motion with
          fins := t.motion.fins, finEvt := t.motion.finEvt, dirRev := t.motion.dirRev, turn := t.motion.turn, evt := t.motion.evt }
        recorder := t.recorder, chain := t.chain, manil := { s.manil with conTx := t.manil.conTx } }) ∧
  (∀ (n : Fin 8) (s : State), s.coreUp = true → s.domainOn (72 + n.val) = true → (s.motion.fins[n]).stopped = false →
    Answers (exec (.finStopped n) s) fun t =>
      t.motion.fins = upd s.motion.fins n (fun f => { f with period := 0xFFFFFF, stopped := true, fresh := true }) ∧
      t.motion.finEvt = (if (s.motion.fins[n]).measured then raise s.motion.finEvt n.val else s.motion.finEvt) ∧
      t = { s with motion := { s.motion with fins := t.motion.fins, finEvt := t.motion.finEvt } })) ∧
  ((∀ (n : Fin 8) (level both : Bool) (stamp : ChainTime) (cycles : Nat) (s : State), s.coreUp = true → s.domainOn (72 + n.val) = true →
    s.domainOn 101 = true → (s.motion.fins[n]).level ≠ level → s.finBars n = false → s.quad (evenOf n).val = false → s.odoSource = n.val + 1 →
    let edge := fld (s.reg (Reg.finCfg n)) 12 2
    let high := xor level (bit (s.reg (Reg.finCfg n)) 14)
    let selected := edge = 0 ∧ high = true ∨ edge = 1 ∧ high = false ∨ 2 ≤ edge
    Answers (exec (.finEdge n level stamp cycles both) s) fun t =>
      (selected → t.motion.pos = BitVec.ofInt 40 (s.motion.pos.toNat + (if s.motion.dirRev then -s.dpp else s.dpp)) ∧
        t.motion.pairs = { pos := t.motion.pos, t := stamp } :: s.motion.pairs.take 15 ∧
        (t.motion.fins[n]).count = (s.motion.fins[n]).count + 1) ∧
      (¬selected → t.motion.pos = s.motion.pos ∧ t.motion.pairs = s.motion.pairs ∧
        (t.motion.fins[n]).count = (s.motion.fins[n]).count) ∧
      Drives s t ∧ t.unit = s.unit ∧ t.power = s.power ∧ t.engine = s.engine ∧
      t.sol = s.sol ∧ t.pwm = s.pwm ∧ t.pilot = s.pilot ∧ t.safety = s.safety) ∧
  (∀ (n : Fin 8) (level both : Bool) (stamp : ChainTime) (cycles : Nat) (s : State), s.coreUp = true → s.domainOn (72 + n.val) = true →
    s.domainOn 101 = true → (s.motion.fins[n]).level ≠ level → s.finBars n = false → s.quad (evenOf n).val = true →
    s.odoSource = (evenOf n).val + 1 →
    Answers (exec (.finEdge n level stamp cycles both) s) fun t =>
      let e := evenOf n
      let up := xor (if n = e then xor (t.finLevel e) (t.finLevel (oddOf n)) else t.finLevel e == t.finLevel (oddOf n))
        (bit (s.reg (Reg.finCfg e)) 16)
      (both = false ∨ s.finBars (mateOf n) = true →
        t.motion.pos = BitVec.ofInt 40 (s.motion.pos.toNat + (if up then s.dpp else -s.dpp)) ∧
        t.motion.pairs = { pos := t.motion.pos, t := stamp } :: s.motion.pairs.take 15 ∧
        (t.motion.fins[e]).count = (if up then (s.motion.fins[e]).count + 1 else (s.motion.fins[e]).count - 1)) ∧
      (both = true → s.finBars (mateOf n) = false → t.motion.pos = s.motion.pos ∧ t.motion.pairs = s.motion.pairs) ∧
      Drives s t ∧ t.unit = s.unit ∧ t.power = s.power ∧ t.engine = s.engine ∧
      t.sol = s.sol ∧ t.pwm = s.pwm ∧ t.pilot = s.pilot ∧ t.safety = s.safety))

/-- Encoder ports (R225, R226, R229): a read that falls due is stamped with chain time, and one that finds the last one still running is skipped. Four
faults end a read, checked in order; a failed read counts, and the third in a row is a fault of the port, of one with role DIST told too. A good
read takes its word, from Gray code where CODE says so, and its stamp, and clears the fault; that of the port which is the odometer's source moves
it by ODO.DPP for each step of the word and latches a pair with the read's stamp (R233, R240). Pins (R28, R29, R94, R117, R228): outside a running
unit ECKp, EPCp and EPDp are high, CKOUT is low and CTX is not driven. Under MIRROR EPCp copies ECKp and EPDp copies EDIp; with it clear both are
high. CKOUT counts the cycles of its source, and starts once they have come to its gap: it is then high for the first half of each period, rounded
down, and for a divisor of 1 of each cycle; it is low while its EN is 0 or the clock of its domain is gated, and a high phase that a tide finds is
completed first. -/
def Obligations.EncodersAreRead : Prop :=
  ((∀ (p : Fin 4) (s : State), s.coreUp = true → s.domainOn (68 + p.val) = true → s.encRole p ≠ 0 → (s.motion.encs[p]).due ≤ s.clk →
    Answers (exec (.encoderRead p) s) fun t =>
      let e := s.motion.encs[p]
      t = { s with motion := { s.motion with encs := upd s.motion.encs p fun _ =>
        { e with due := s.clk + 10 * s.regN (Reg.encPer p), reading := true, fall := if e.reading then e.fall else s.clk
                 stamp := if e.reading then e.stamp else s.time } } }) ∧
  (∀ (p : Fin 4) (r : EncoderRead) (s : State), s.coreUp = true → s.domainOn (68 + p.val) = true → (s.motion.encs[p]).reading = true →
    s.encRole p ≠ 1 →
    let e := s.motion.encs[p]
    let raw := r.bits.toNat % 2 ^ s.encWidth p
    let word := if bit (s.reg (Reg.encCfg p)) 5 then grayToBinary (s.encWidth p - 1) raw else raw
    let jumps := e.valid = true ∧ s.regN (Reg.encJump p) ≠ 0 ∧ s.regN (Reg.encJump p) < (wordDiff (s.encWidth p) word e.word.toNat).natAbs
    Answers (exec (.encoderReadEnd p r) s) fun t =>
      (∀ cause, (r.startHigh = false ∧ cause = 0 ∨ r.startHigh = true ∧ r.tail = true ∧ cause = 1 ∨
          r.startHigh = true ∧ r.tail = false ∧ r.endHigh = false ∧ cause = 2 ∨
          r.startHigh = true ∧ r.tail = false ∧ r.endHigh = true ∧ jumps ∧ cause = 3) →
        (t.motion.encs[p]).err = satInc e.err ∧ (t.motion.encs[p]).word = e.word ∧ (t.motion.encs[p]).fails = e.fails + 1 ∧
        t.motion.encEvt.getLsbD (4 * cause + p.val) = true ∧ (2 ≤ e.fails → (t.motion.encs[p]).fault = true)) ∧
      (r.startHigh = true ∧ r.tail = false ∧ r.endHigh = true ∧ ¬jumps →
        (t.motion.encs[p]).word = BitVec.ofNat 24 word ∧ (t.motion.encs[p]).time = e.stamp.setWidth 24 ∧ (t.motion.encs[p]).valid = true ∧
        (t.motion.encs[p]).fails = 0 ∧ (t.motion.encs[p]).fault = false ∧ (t.motion.encs[p]).err = e.err ∧
        t.motion.encEvt = s.motion.encEvt) ∧
      (t.motion.encs[p]).reading = false ∧
      t = { s with motion := { s.motion with encs := upd s.motion.encs p fun _ => t.motion.encs[p], encEvt := t.motion.encEvt } }) ∧
  (∀ (p : Fin 4) (r : EncoderRead) (s : State), s.coreUp = true → s.domainOn (68 + p.val) = true → (s.motion.encs[p]).reading = true →
    s.encRole p = 1 →
    let e := s.motion.encs[p]
    let raw := r.bits.toNat % 2 ^ s.encWidth p
    let word := if bit (s.reg (Reg.encCfg p)) 5 then grayToBinary (s.encWidth p - 1) raw else raw
    let step := if e.valid then wordDiff (s.encWidth p) word e.word.toNat else 0
    let jumps := e.valid = true ∧ s.regN (Reg.encJump p) ≠ 0 ∧ s.regN (Reg.encJump p) < (wordDiff (s.encWidth p) word e.word.toNat).natAbs
    let good := r.startHigh = true ∧ r.tail = false ∧ r.endHigh = true ∧ ¬jumps
    Answers (exec (.encoderReadEnd p r) s) fun t =>
      (¬good → (t.motion.encs[p]).err = satInc e.err ∧ (t.motion.encs[p]).word = e.word ∧ (t.motion.encs[p]).fails = e.fails + 1 ∧
        t.motion.pos = s.motion.pos ∧ t.motion.pairs = s.motion.pairs ∧
        (e.fails < 2 ∨ e.fault = true → (t.motion.encs[p]).fault = e.fault ∧ t.motion.evt = s.motion.evt ∧ t.chain = s.chain) ∧
        (2 ≤ e.fails → e.fault = false → (t.motion.encs[p]).fault = true ∧ t.motion.evt = raise s.motion.evt 4 ∧
          t.chain = (s.notice [.word "MOTION", .word "FAULT", .word ("ENC" ++ toString p.val)]).chain)) ∧
      (good → (t.motion.encs[p]).word = BitVec.ofNat 24 word ∧ (t.motion.encs[p]).time = e.stamp.setWidth 24 ∧
        (t.motion.encs[p]).valid = true ∧ (t.motion.encs[p]).fails = 0 ∧ (t.motion.encs[p]).fault = false ∧
        (t.motion.encs[p]).err = e.err ∧ t.motion.encEvt = s.motion.encEvt ∧
        (s.odoSource = 9 + p.val → s.domainOn 101 = true →
          t.motion.pos = BitVec.ofInt 40 (s.motion.pos.toNat + s.dpp * (if bit (s.reg (Reg.encCfg p)) 22 then -step else step)) ∧
          t.motion.pairs = { pos := t.motion.pos, t := e.stamp } :: s.motion.pairs.take 15) ∧
        (s.odoSource ≠ 9 + p.val ∨ s.domainOn 101 = false → t.motion.pos = s.motion.pos ∧ t.motion.pairs = s.motion.pairs ∧
          t.motion.evt = s.motion.evt ∧ t.chain = s.chain)) ∧
      (t.motion.encs[p]).reading = false ∧ (∀ q, q ≠ p → t.motion.encs[q] = s.motion.encs[q]) ∧ t.motion.fins = s.motion.fins ∧
      t = { s with motion := t.motion, recorder := t.recorder, chain := t.chain, manil := { s.manil with conTx := t.manil.conTx } })) ∧
  ((∀ (p : Fin 4) (ns n : Nat) (x : Bool) (s : State), s.phase ≠ .running →
    s.eck p ns = true ∧ s.epc p ns = true ∧ s.epd p x = true ∧ s.ckoutPin n = false ∧ s.ctxDriven = false) ∧
  (∀ (p : Fin 4) (ns : Nat) (x : Bool) (s : State), s.phase = .running → s.domainOn (68 + p.val) = true →
    bit (s.reg (Reg.encCfg p)) 21 = true → s.epc p ns = s.eck p ns ∧ s.epd p x = x) ∧
  (∀ (p : Fin 4) (ns : Nat) (x : Bool) (s : State), bit (s.reg (Reg.encCfg p)) 21 = false → s.epc p ns = true ∧ s.epd p x = true) ∧
  (∀ (n : Nat) (s : State), (∀ o, s.ckout.old = some o → o.2 ≤ n) →
    let w := s.reg Reg.ckout
    let gone := s.ckoutCycles w n
    (bit w 18 = false ∨ s.clockOn (fld w 0 6) = false ∨ n < s.ckout.start ∨ gone < s.ckout.wait → s.ckoutPin n = false) ∧
    (s.phase = .running → s.ckout.start ≤ n → s.ckout.wait ≤ gone → bit w 18 = true → s.clockOn (fld w 0 6) = true →
      s.ckoutPin n = decide ((gone - s.ckout.wait) % (500000 * ckoutDiv w) <
        if ckoutDiv w = 1 then 250000 else 500000 * (ckoutDiv w / 2)))) ∧
  (∀ (n until_ : Nat) (w : Word) (s : State), s.phase = .running → s.ckout.old = some (w, until_) → n < until_ →
    s.clockOn (fld w 0 6) = true → s.ckoutPin n = true))

/-- With no pair for ODO.STOPT a moving unit comes to rest: the estimates are 0 and MOVING is clear, and at any other time ODO_STOP changes nothing
(R242). With no SPEED line for ODO.SPDTMO, while SPEED values are used, STALE is set with its flag, record and notice, once in each use, and what
is estimated from SPEED values is 0 from then on (R243, R342); at any other time SPEED_STALE changes nothing. At each multiple of 100 µs, once, a
WATCH computes the estimates of the odometer (R242): in every state, where R255 has the watches of the engine in UNDERWAY and STRANDED only (the
model's choice, log 93; what MOVING is, log 38). Outside these two it casts nothing and changes no output, and with no source the estimates are 0.
In them it counts the travel of a STRANDED unit (R208); where that has come to a limit, judged at watches (log 42), the limit action begins
(R209); where PD101 is off there are no estimates and no lanes; where a limit action or a handover runs nothing is cast, and else turn
compensation is computed anew, what GO or FREE left is cast, and the lane of each channel whose domain is on and that no pair drives judges its
heads, in ascending order (R255, R278). At any other time WATCH changes nothing. -/
def Obligations.EstimatesFollowThePairs : Prop :=
  ((∀ s : State, exec .odoStop s = .next (
    if s.coreUp = true ∧ s.motion.moving = true ∧ s.odoSource ≠ 13 ∧ s.motion.lastPair + 1000 * s.regN Reg.odoStopt ≤ s.clk then
      { s with motion := { s.motion with vel := {}, acc := {}, moving := false } }
    else s)) ∧
  (∀ s : State, s.coreUp = true → s.domainOn 101 = true → s.speedInUse = true → s.motion.speedTold = false →
    s.motion.speedSince + 1000 * s.regN Reg.odoSpdtmo ≤ s.clk →
    let yawToo := s.odoSource = 13 ∨ fld (s.reg Reg.odoCfg) 11 3 = 5
    ∃ t : State, exec .speedStale s = .next t ∧
      t.motion = { s.motion with
        speedStale := true, speedTold := true, evt := raise s.motion.evt 3, moving := s.motion.moving && decide (s.odoSource ≠ 13)
        vel := if s.odoSource = 13 then {} else s.motion.vel, acc := if s.odoSource = 13 then {} else s.motion.acc
        yaw := if yawToo then {} else s.motion.yaw } ∧
      t = { s with motion := t.motion, recorder := (s.record 0x105 63 0).recorder, chain := t.chain, manil := t.manil } ∧ Drives s t) ∧
  (∀ s : State, s.coreUp = false ∨ s.domainOn 101 = false ∨ s.speedInUse = false ∨ s.motion.speedTold = true ∨
    s.clk < s.motion.speedSince + 1000 * s.regN Reg.odoSpdtmo → exec .speedStale s = .next s)) ∧
  ((∀ s : State, s.coreUp = false ∨ (s.domainOn 101 = false ∧ s.unit.st.casting = false) ∨ s.now % 100 ≠ 0 ∨ s.engine.lastWatch = some s.time →
    exec .watch s = .next s) ∧
  (∀ s : State, s.coreUp = true → s.domainOn 101 = false → s.unit.st.casting = true → s.now % 100 = 0 → s.engine.lastWatch ≠ some s.time →
    let w : State := { s with engine := { s.engine with lastWatch := some s.time } }
    let counted := if s.unit.st = .stranded then
      { w with unit := { w.unit with
        strUsed := w.unit.strUsed + (posDiff w.motion.pos w.unit.strPos).natAbs, strPos := w.motion.pos } } else w
    (∀ time, counted.strandedLimit = some time → exec .watch s = .next (counted.startLimit time)) ∧
    (counted.strandedLimit = none → exec .watch s = .next counted)) ∧
  (∀ s : State, s.coreUp = true → s.domainOn 101 = true → s.now % 100 = 0 → s.engine.lastWatch ≠ some s.time →
    let m := s.speedStep.estimates
    m.regs = s.regs ∧ m.sol = s.sol ∧ m.pwm = s.pwm ∧ m.unit = s.unit ∧ m.engine = s.engine ∧ Drives s m ∧
      (s.odoSource = 0 → m.motion.vel = {} ∧ m.motion.acc = {} ∧ m.motion.pos = s.motion.pos ∧ m.motion.pairs = s.motion.pairs) ∧
      let w : State := { m with engine := { m.engine with lastWatch := some m.time } }
      let counted := if s.unit.st = .stranded then
        { w with unit := { w.unit with
          strUsed := w.unit.strUsed + (posDiff w.motion.pos w.unit.strPos).natAbs, strPos := w.motion.pos } } else w
      (s.unit.st.casting = false → exec .watch s = .next w) ∧
      (∀ time, s.unit.st.casting = true → counted.strandedLimit = some time → exec .watch s = .next (counted.startLimit time)) ∧
      (s.unit.st.casting = true → counted.strandedLimit = none → counted.lanesRun = false → exec .watch s = .next counted) ∧
      (s.unit.st.casting = true → counted.strandedLimit = none → counted.lanesRun = true →
        exec .watch s = .next (allChans.foldl
          (fun t c => if t.domainOn (laneDomain c) = true ∧ t.oddChan c = false then t.lane c ((t.engine.chans[c]).manifest.length + 1) else t)
          counted.turnAll.castKept))))

/-- What a lane makes of a head at a watch (R256 to R264, R218): one found behind with LATE 0 is missed and its channel stays as it is; one found
behind with LATE 1 is cast 100 µs later, unless its channel is held; one that waits stays. A projected one arrives τ after the newest pair, never
where V² + 2AD < 0; where its arrival less its lead lies 200 µs or more after the watch it stays, and else it is cast, its action start that time
to the nearest µs, or 100 µs after the watch where that is later; one late by more than XNG.LATETOL is a late cast. The lead is that of Table
10.4, with the BOOST times of the bank's other channels where BWAIT is 1. -/
def Obligations.LanesJudgeTheHead : Prop :=
  (∀ (s : State) (i : Fin 32),
    s.lead8 (chS i) .close = 8 * (s.clat (chS i) + s.regN (Reg.lag (chS i)))) ∧
  (∀ (s : State) (i : Fin 32) (act : CrossAction), act ≠ .close →
    s.lead8 (chS i) act = (s.engine.chans[chS i]).l8 + 8 * (s.regN (Reg.lag (chS i)) + (if s.xcfgBit (chS i) 1 = true then
      (([0, 1, 2, 3] : List (Fin 4)).map fun k =>
        let o := chanOf (bankOf i) k
        if o ≠ i ∧ s.domainOn o.val = true ∧ s.isOdd o = false then s.tboost o else 0).sum else 0))) ∧
  (∀ (s : State) (v : Fin 8) (act : CrossAction), s.lead8 (chV v) act = 8 * (s.lat (chV v) + s.regN (Reg.lag (chV v)))) ∧
  (∀ (dist : Nat) (v a : Frac), arrivalTau dist v a = none ↔
    dist ≠ 0 ∧ v.num * v.num * a.den * 65536 + 2 * a.num * dist * v.den * v.den < 0) ∧
  (∀ (c : Fin 40) (x : Crossing) (rest : List Crossing) (s : State), (s.engine.chans[c]).manifest = x :: rest → x.stale = false →
    let d := targetDistance x.target s.newestPair.pos
    let sign : Int := if s.motion.vel.num = 0 then 0 else if s.motion.vel.num < 0 then -1 else 1
    let accel : Frac := if s.motion.vel.num < 0 then { s.motion.acc with num := -s.motion.acc.num } else s.motion.acc
    headCase x.dir d sign = .projected →
    (arrivalTau d.natAbs s.motion.vel.abs accel = none → ∀ fuel, s.lane c fuel = s) ∧
    ∀ tau, arrivalTau d.natAbs s.motion.vel.abs accel = some tau →
      let off : Int := timeDiff s.newestPair.t s.time * 256 + tau - 32 * s.lead8 c x.action
      let ts : Nat := if roundDiv off 256 < 100 then 100 else (roundDiv off 256).toNat
      (200 * 256 ≤ off → ∀ fuel, s.lane c fuel = s) ∧
      (off < 200 * 256 → s.held c = false → ∀ fuel,
        let t := s.lane c (fuel + 1)
        t.engine.chans = upd s.engine.chans c (fun y =>
          { y with manifest := rest
                   decided := y.decided ++ [{ x := x, stage := .decided, ts := after s.time ts, before := y.level, landAt := none }] }) ∧
        (256 * (s.regN Reg.lateTol : Int) < ts * 256 - off → t.engine.eLate = satInc s.engine.eLate ∧ t.engine.evt = raise s.engine.evt 2) ∧
        (ts * 256 - off ≤ 256 * (s.regN Reg.lateTol : Int) → t = { s with engine := { s.engine with chans := t.engine.chans } }) ∧ Drives s t) ∧
      (off < 200 * 256 → s.held c = true → ∀ fuel,
        (s.lane c (fuel + 1)).engine.chans = upd s.engine.chans c (fun y =>
          { y with manifest := rest, level := x.level, sched := true, heldLevel := true, muteLevel := true }))) ∧
  (∀ (c : Fin 40) (x : Crossing) (rest : List Crossing) (s : State), (s.engine.chans[c]).manifest = x :: rest → x.stale = false →
    let d := targetDistance x.target s.newestPair.pos
    let sign : Int := if s.motion.vel.num = 0 then 0 else if s.motion.vel.num < 0 then -1 else 1
    (headCase x.dir d sign = .waits → ∀ fuel, s.lane c fuel = s) ∧
    (headCase x.dir d sign = .behind → x.late = false →
      (s.lane c 1).engine.eMiss = satInc s.engine.eMiss ∧ (s.lane c 1).engine.evt.getLsbD 0 = true ∧
      (s.lane c 1).engine.chans = upd s.engine.chans c (fun y => { y with manifest := rest }) ∧
      Drives s (s.lane c 1)) ∧
    (headCase x.dir d sign = .behind → x.late = true → s.held c = false → ∀ fuel,
      (s.lane c (fuel + 1)).engine.eLate = satInc s.engine.eLate ∧ (s.lane c (fuel + 1)).engine.evt.getLsbD 1 = true ∧
      (s.lane c (fuel + 1)).engine.chans = upd s.engine.chans c (fun y =>
        { y with manifest := rest
                 decided := y.decided ++ [{ x := x, stage := .decided, ts := after s.time 100, before := y.level, landAt := none }] })) ∧
    (headCase x.dir d sign = .behind → x.late = true → s.held c = true → ∀ fuel,
      (s.lane c (fuel + 1)).engine.chans = upd s.engine.chans c (fun y =>
        { y with manifest := rest, level := x.level, sched := true, heldLevel := true, muteLevel := true })))

/-- At its ts a decided crossing is cast (R263, R266): its action becomes the scheduled level of its channel, whose openings it lets teach or not
(R269), and it is the channel's current crossing: LANDED exactly where the output already holds that level (a coil on or pulsing, log 40; a valve
at its end), else in stage CAST, to land CHcc.CLAT after ts for a CLOSE, CHcc.LAT after it for a valve, and at its dip for an opening. Both limits
of a valve asserted are a fault of it instead. Landings counted from ts (R266): a CLOSE of a solenoid and every crossing of a valve land when
their time has come, with a notice where NOTIFY is set; nothing else changes. -/
def Obligations.CastsAndLandings : Prop :=
  (∀ (c : Fin 40) (k : Current) (rest : List Current) (s : State), (s.engine.chans[c]).decided = k :: rest → s.lanesRun = true →
    s.reached k.ts = true →
    Answers (exec (.cast c) s) fun t =>
      let made (holds : Bool) (landAt : Option ChainTime) : Current :=
        { k with stage := if holds then .landed else .cast, before := (s.engine.chans[c]).level, beforeHeld := (s.engine.chans[c]).heldLevel
                 beforeMute := (s.engine.chans[c]).muteLevel, landAt := if holds then none else landAt }
      (t.engine.chans[c]).level = k.x.level ∧ (t.engine.chans[c]).sched = true ∧ (t.engine.chans[c]).muteLevel = k.x.noLearn ∧
      (c.val < 32 ∨ rest = [] → (t.engine.chans[c]).decided = rest) ∧
      (∀ i : Fin 32, c = chS i →
        let ch := s.sol.chans[i]
        let holds := match k.x.action with
          | .open_ => ch.want && decide (ch.phase ≠ .idle) && decide (ch.phase ≠ .off)
          | .close => !ch.want && !ch.pulsing
          | .duty => ch.pulsing
        (t.engine.chans[c]).cur = some (made holds (if k.x.action = .close then some (after s.time (s.clat c)) else none))) ∧
      (∀ v : Fin 8, c = chV v → s.limAsserted v .open_ = false ∨ s.limAsserted v .closed = false →
        (t.engine.chans[c]).cur = some (made (s.standsAt v (if k.x.action = .close then .closed else .open_))
          (some (after s.time (s.lat c))))) ∧
      Drives s t ∧ t.unit = s.unit ∧ t.regs = s.regs) ∧
  ((∀ (c : Fin 32) (k : Current) (at_ : ChainTime) (s : State), s.coreUp = true → (s.engine.chans[chS c]).cur = some k → k.stage = .cast →
    k.landAt = some at_ → s.reached at_ = true →
    Answers (exec (.closeLanding c) s) fun t =>
      (t.engine.chans[chS c]).cur = some { k with stage := .landed, landAt := none } ∧
      t.engine = { s.engine with chans := t.engine.chans } ∧ (∀ d, d ≠ chS c → t.engine.chans[d] = s.engine.chans[d]) ∧
      t = { s with engine := t.engine, chain := t.chain, manil := { s.manil with conTx := t.manil.conTx } } ∧
      (k.x.notify = false → t.chain = s.chain)) ∧
  (∀ (v : Fin 8) (k : Current) (at_ : ChainTime) (s : State), s.coreUp = true → (s.engine.chans[chV v]).cur = some k → k.stage = .cast →
    k.landAt = some at_ → s.reached at_ = true →
    Answers (exec (.valveLanding v) s) fun t =>
      (t.engine.chans[chV v]).cur = some { k with stage := .landed, landAt := none } ∧
      t.engine = { s.engine with chans := t.engine.chans } ∧ (∀ d, d ≠ chV v → t.engine.chans[d] = s.engine.chans[d]) ∧
      t = { s with engine := t.engine, chain := t.chain, manil := { s.manil with conTx := t.manil.conTx } } ∧
      (k.x.notify = false → t.chain = s.chain)))

/-- A dip confirmed in BOOST or PEAK (R266, R268, R270, R281, R290): it is remembered, NLRUN is 0, the latency is measured from BOOST start into
CHcc.LATM, an opening that may teach moves L8 by an eighth of the difference, held to 2 to 250 ms, and the current crossing of a casting unit
lands unless its own opening has already passed without a dip (R267). With PKEXIT and CHcc.PKPOST 0 the dip also ends PEAK. -/
def Obligations.DipsLandAndTeach : Prop :=
  ∀ (c : Fin 32) (s : State), s.coreUp = true → s.domainOn c.val = true → s.isOdd c = false →
    ((s.sol.chans[c]).phase = .boost ∨ (s.sol.chans[c]).phase = .peak) →
    (s.sol.chans[c]).dip = none → 100 * fld (s.reg (0x1100 + 8 * c.val)) 8 10 ≤ s.since (s.sol.chans[c]).boostAt →
    let m := s.since (s.sol.chans[c]).boostAt
    Answers (exec (.armatureDip c) s) fun t =>
      (t.sol.chans[c]).dip = some s.time ∧ (t.sol.chans[c]).nlrun = 0 ∧
      ((s.sol.chans[c]).phase = .boost ∨ (s.sol.chans[c]).post = none →
        t.sol = { s.sol with chans := upd s.sol.chans c fun x => { x with dip := some s.time, nlrun := 0 } }) ∧
      ((s.sol.chans[c]).phase = .peak → (s.sol.chans[c]).post = some 0 → (t.sol.chans[c]).phase = .hold) ∧
      (t.engine.chans[chS c]).latm = BitVec.ofNat 18 (Nat.min 262143 m) ∧
      ((s.sol.chans[c]).teach = true → s.xcfgBit (chS c) 0 = true → s.domainOn 101 = true →
        ((t.engine.chans[chS c]).l8 : Int) = clampZ 16000 2000000 (learnStep (s.engine.chans[chS c]).l8 m)) ∧
      ((s.sol.chans[c]).teach = false → (t.engine.chans[chS c]).l8 = (s.engine.chans[chS c]).l8) ∧
      (∀ k, (s.engine.chans[chS c]).cur = some k → k.stage = .cast → k.x.action ≠ .close → s.unit.st.casting = true →
        (t.engine.chans[chS c]).cur = some (if k.missed then k else { k with stage := .landed, landAt := none })) ∧
      (∀ d, d ≠ chS c → t.engine.chans[d] = s.engine.chans[d]) ∧
      t = { s with sol := t.sol, engine := t.engine, chain := t.chain, manil := { s.manil with conTx := t.manil.conTx } }

/-! ### Solenoid banks (chapter 11) -/

/-- The arbiter's grant (R284, R285, R286): with no channel in BOOST the oldest of the queue is granted; with boost ready it starts BOOST for
CHcc.TBOOST from VBST, or from VBAT while the kill tree holds the path to VBST open (R370; the model's choice, log 87), its low side on where its
current is below CHcc.PEAK, to 3 % and 15 mA (R400; log 99), its actuation count rises by 1, and it holds the arbiter. Channels of other banks and
every other channel of the bank stay. A bank with a holder or an empty queue grants nothing. A grant that finds boost not ready (R287, Table
11.4): the channel and the bank are told of it, and by BANKb.CFG the channel waits, starts from VBAT, or is skipped and its cast never lands. A
wait that outlasts BANKb.CFG.BNRWAIT starts from VBAT; when boost becomes ready first, every channel that waits starts from VBST. The converter's
events (R286, R288): leaving the band ends readiness, takes learning from each BOOST from VBST, which goes on, and, outside the ramp and any
BOOST, is an event; OV is set above 110 % of the target or 63.0 V; STARTFAIL is the event of a converter not ready 100 ms after its start, once. -/
def Obligations.BoostIsGranted : Prop :=
  ((∀ (b : Fin 8) (s : State), (s.sol.banks[b]).holder ≠ none ∨ (s.sol.banks[b]).queue = [] → exec (.boostGrant b) s = .next s) ∧
  (∀ (b : Fin 8) (c : Fin 32) (rest : List (Fin 32)) (s : State), (s.sol.banks[b]).holder = none → (s.sol.banks[b]).queue = c :: rest →
    bankOf c = b → s.sol.boost.rdy = true →
    Answers (exec (.boostGrant b) s) fun t =>
      let ch := s.sol.chans[c]
      t.sol.chans = upd s.sol.chans c (fun _ =>
        { ch with
          phase := .boost, boostAt := s.time, phaseEnd := after s.time (s.tboost c), dip := none, post := none, fromVbat := s.bankKilled b
          teach := ch.teach && !s.bankKilled b, decaying := false, act := if ch.act = BitVec.allOnes 48 then ch.act else ch.act + 1
          chopClk := some s.clk, lowSide := (t.sol.chans[c]).lowSide, maxSeen := 0, minSeen := none, dipFound := false
          chopDecay := if s.profBit c 0 then .fast else .slow }) ∧
      (100 * s.coilNow c + 1500 < 97 * s.regN (Reg.peak c) → (t.sol.chans[c]).lowSide = true) ∧
      (103 * s.regN (Reg.peak c) + 1500 ≤ 100 * s.coilNow c → (t.sol.chans[c]).lowSide = false) ∧
      (t.sol.banks[b]).holder = some c ∧ (t.sol.banks[b]).vbst = !s.bankKilled b ∧ c ∉ (t.sol.banks[b]).queue ∧ t.sol.boost = s.sol.boost ∧
      (∀ d, d ≠ b → t.sol.banks[d] = s.sol.banks[d]) ∧ t = { s with sol := t.sol })) ∧
  ((∀ (b : Fin 8) (c : Fin 32) (rest : List (Fin 32)) (s : State), (s.sol.banks[b]).holder = none → (s.sol.banks[b]).queue = c :: rest →
    bankOf c = b → s.sol.boost.rdy = false →
    Answers (exec (.boostGrant b) s) fun t =>
      let policy := fld (s.reg (Reg.bankCfg b)) 9 2
      (t.sol.chans[c]).diag = raise (s.sol.chans[c]).diag 5 ∧ (t.sol.banks[b]).evt = raise (s.sol.banks[b]).evt 3 ∧
      (policy = 0 → (t.sol.chans[c]).phase = .bnrwait ∧ (t.sol.banks[b]).holder = some c ∧
        (t.sol.banks[b]).waitUntil = some (after s.time (1000 * fld (s.reg (Reg.bankCfg b)) 13 7))) ∧
      (policy = 1 → (t.sol.chans[c]).phase = .boost ∧ (t.sol.chans[c]).fromVbat = true ∧ (t.sol.chans[c]).teach = false ∧
        (t.sol.banks[b]).vbst = false) ∧
      (policy < 2 → t.engine = s.engine) ∧
      (2 ≤ policy → (t.sol.chans[c]).phase = .idle ∧ (t.sol.chans[c]).idleClk = s.clk ∧ (t.sol.banks[b]).holder = none ∧
        t.engine = { s.engine with chans := upd s.engine.chans (chS c) fun x => { x with cur := x.cur.map fun (k : Current) =>
          if k.stage = .cast ∧ k.x.action ≠ .close ∧ s.unit.st.casting = true then { k with missed := true } else k } }) ∧
      c ∉ (t.sol.banks[b]).queue ∧ (∀ d, d ≠ c → t.sol.chans[d] = s.sol.chans[d]) ∧
      t = { s with
        sol := t.sol, engine := t.engine, recorder := t.recorder, chain := t.chain, manil := { s.manil with conTx := t.manil.conTx } }) ∧
  (∀ (b : Fin 8) (c : Fin 32) (at_ : ChainTime) (s : State), (s.sol.banks[b]).holder = some c → bankOf c = b →
    (s.sol.banks[b]).waitUntil = some at_ → (s.sol.chans[c]).phase = .bnrwait → s.reached at_ = true →
    exec (.bnrwaitExpiry b) s = .next (s.startBoost c false)) ∧
  (∀ (vbst : Nat) (s : State), s.sol.boost.run = true → s.sol.boost.rdy = false → s.inBand vbst = true →
    Answers (exec (.boostReady vbst) s) fun t =>
      t.sol.boost.rdy = true ∧ t.sol.boost.vmeas = vbst ∧
      (∀ c : Fin 32, (s.sol.chans[c]).phase = .bnrwait →
        (t.sol.chans[c]).phase = .boost ∧ (t.sol.chans[c]).fromVbat = s.bankKilled (bankOf c) ∧ (t.sol.chans[c]).boostAt = s.time) ∧
      (∀ c : Fin 32, (s.sol.chans[c]).phase ≠ .bnrwait → t.sol.chans[c] = s.sol.chans[c]) ∧
      t = { s with sol := t.sol })) ∧
  ((∀ (vbst : Nat) (s : State), s.sol.boost.run = true → s.sol.boost.rdy = true → s.inBand vbst = false →
    Answers (exec (.notReady vbst) s) fun t =>
      t.sol.boost.rdy = false ∧ t.sol.boost.vmeas = vbst ∧
      t.sol.boost.evt = (if s.boostRamp ∨ s.anyBoost then s.sol.boost.evt else raise s.sol.boost.evt 1) ∧
      (∀ c : Fin 32, t.sol.chans[c] =
        if (s.sol.chans[c]).phase = .boost ∧ (s.sol.banks[bankOf c]).vbst = true then
          { s.sol.chans[c] with teach := false, diag := raise (s.sol.chans[c]).diag 5 }
        else s.sol.chans[c]) ∧
      t.sol.banks = s.sol.banks ∧
      t = { s with sol := t.sol, recorder := t.recorder, chain := t.chain, manil := { s.manil with conTx := t.manil.conTx } }) ∧
  (∀ (vbst : Nat) (s : State), s.sol.boost.run = true → s.sol.boost.ov = false → (11 * s.bstTarget < 10 * vbst ∨ 630 < vbst) →
    Answers (exec (.ov vbst) s) fun t =>
      t.sol.boost.ov = true ∧ t.sol.boost.evt.getLsbD 0 = true ∧ t.sol.boost.vmeas = vbst ∧
      t.sol.boost.rdy = (s.sol.boost.rdy && s.inBand vbst) ∧
      (s.sol.boost.rdy = false → t.sol.boost.evt = raise s.sol.boost.evt 0 ∧ t.sol.chans = s.sol.chans) ∧ t.sol.banks = s.sol.banks ∧
      t = { s with sol := t.sol, recorder := t.recorder, chain := t.chain, manil := { s.manil with conTx := t.manil.conTx } }) ∧
  (∀ (vbst : Nat) (s : State), s.sol.boost.run = true → s.sol.boost.rdy = false → s.sol.boost.judged = false →
    s.sol.boost.startAt + 100000 ≤ s.clk →
    Answers (exec (.startFail vbst) s) fun t =>
      t.sol.boost = { s.sol.boost with judged := true, evt := raise s.sol.boost.evt 2, vmeas := vbst } ∧ t.sol.chans = s.sol.chans ∧
      t.sol.banks = s.sol.banks ∧
      t = { s with sol := t.sol, recorder := t.recorder, chain := t.chain, manil := { s.manil with conTx := t.manil.conTx } }))

/-- The ends of the phases (R281, R289, R291, R292, R293, R303). BOOST ends at its time, with OL where the filtered current, for a pair the sum of its
two members', is below 100 mA, to 20 mA (R400; log 99); it releases the arbiter and PEAK starts, which is skipped where its end has come. PEAK
ends into HOLD. An opening without a dip that comes to HOLD counts NLRUN, sets NOLAND and, where PROF asks for it, faults; a fault turns the
channel off in the same step. OFF completes when the current has gone, below 20 mA (log 88): a coil told more carries 19 mA from then on (the
model's choice, log 48). A channel that waited for that and for TOFF requests boost, behind the requests before it. Before its time each of the
four changes nothing. The actuation counters are written to NVM once in each hour of operating time, which is 64 units of 56.25 s, and at no other
time (R306). -/
def Obligations.PhasesEndInOrder : Prop :=
  ((∀ (c : Fin 32) (filtered : Nat) (s : State), (s.sol.chans[c]).phase ≠ .boost ∨ s.reached (s.sol.chans[c]).phaseEnd = false →
    exec (.boostEnd c filtered) s = .next s) ∧
  (∀ (c : Fin 32) (filtered : Nat) (s : State), (s.sol.chans[c]).phase = .boost → s.reached (s.sol.chans[c]).phaseEnd = true →
    let ch := s.sol.chans[c]
    let own := Nat.min 8191 filtered
    let total := if s.leads c then Nat.min 8191 (own + ((s.sol.chans[partner c]).imeas).toNat) else own
    let skips := s.tpeak c = 0 ∨ ∃ at_, ch.dip = some at_ ∧ s.profBit c 5 = true ∧ s.reached (after at_ (s.pkpost c)) = true
    let missed := s.tpeak c = 0 ∧ ch.dip = none
    let n := Nat.min 15 (ch.nlrun + 1)
    ∃ u : State, exec (.boostEnd c filtered) s = .next (if (u.sol.chans[c]).fault = ch.fault then u else u.refresh) ∧
      (u.sol.chans[c]).imeas = BitVec.ofNat 13 own ∧ (ch.diag.getLsbD 0 = true ∨ total < 80 → (u.sol.chans[c]).diag.getLsbD 0 = true) ∧
      (120 ≤ total → (u.sol.chans[c]).diag.getLsbD 0 = ch.diag.getLsbD 0) ∧
      (u.sol.banks[bankOf c]).holder ≠ some c ∧ (skips → (u.sol.chans[c]).phase = .hold) ∧ (¬skips → (u.sol.chans[c]).phase = .peak) ∧
      (¬skips → (ch.dip = none ∨ s.profBit c 5 = false) → (u.sol.chans[c]).phaseEnd = after s.time (s.tpeak c)) ∧
      (missed → (u.sol.chans[c]).nlrun = n ∧ (u.sol.chans[c]).diag.getLsbD 4 = true) ∧
      (¬missed → (u.sol.chans[c]).nlrun = ch.nlrun ∧ u.engine = s.engine) ∧
      (u.sol.chans[c]).fault = (if missed ∧ s.profBit c 6 = true ∧ fld (s.reg (Reg.prof c)) 7 4 ≤ n then raise ch.fault 2 else ch.fault) ∧
      (∀ d, d ≠ c → u.sol.chans[d] = s.sol.chans[d]) ∧ (∀ b, b ≠ bankOf c → u.sol.banks[b] = s.sol.banks[b]) ∧
      u = { s with
        sol := u.sol, engine := u.engine, recorder := u.recorder, chain := u.chain, manil := { s.manil with conTx := u.manil.conTx } } ∧
      (s.Calm → Steady s u.refresh)) ∧
  (∀ (c : Fin 32) (s : State), (s.sol.chans[c]).phase ≠ .peak ∨ s.reached (s.sol.chans[c]).phaseEnd = false →
    exec (.peakEnd c) s = .next s) ∧
  (∀ (c : Fin 32) (s : State), (s.sol.chans[c]).phase = .peak → s.reached (s.sol.chans[c]).phaseEnd = true →
    let ch := s.sol.chans[c]
    let missed := ch.dip = none
    let n := Nat.min 15 (ch.nlrun + 1)
    ∃ u : State, exec (.peakEnd c) s = .next u.refresh ∧
      u.sol.chans = upd s.sol.chans c (fun _ =>
        { ch with
          phase := .hold, nlrun := if missed then n else ch.nlrun, diag := if missed then raise ch.diag 4 else ch.diag
          fault := if missed ∧ s.profBit c 6 = true ∧ fld (s.reg (Reg.prof c)) 7 4 ≤ n then raise ch.fault 2 else ch.fault }) ∧
      u.sol.banks = s.sol.banks ∧ (¬missed → u = { s with sol := u.sol }) ∧
      u = { s with
        sol := u.sol, engine := u.engine, recorder := u.recorder, chain := u.chain, manil := { s.manil with conTx := u.manil.conTx } } ∧
      (s.Calm → Steady s u.refresh)) ∧
  (∀ (c : Fin 32) (s : State), exec (.offComplete c) s = .next (
    let ch := s.sol.chans[c]
    if ch.decaying then
      { s with sol := { s.sol with chans := upd s.sol.chans c fun _ =>
        { ch with
          decaying := false, coil := Nat.min 19 ch.coil, phase := if ch.phase = .off then .idle else ch.phase
          idleClk := if ch.phase = .off then s.clk else ch.idleClk } } }
    else s)) ∧
  (∀ (c : Fin 32) (s : State), (s.sol.chans[c]).phase ≠ .offwait ∨ (s.sol.chans[c]).decaying = true ∨
    ((s.sol.chans[c]).offAt.any fun at_ => s.since at_ < s.toff c) = true → exec (.offwaitEnd c) s = .next s) ∧
  (∀ (c : Fin 32) (s : State), (s.sol.chans[c]).phase = .offwait → (s.sol.chans[c]).decaying = false →
    ((s.sol.chans[c]).offAt.any fun at_ => s.since at_ < s.toff c) = false →
    ∃ t : State, exec (.offwaitEnd c) s = .next t ∧
      t.sol.chans = upd s.sol.chans c (fun ch => { ch with phase := .queued, teach := !s.noLearn c, dip := none, reqClk := s.clk }) ∧
      (∀ b, b ≠ bankOf c → t.sol.banks[b] = s.sol.banks[b]) ∧
      (let k := s.sol.banks[bankOf c]
       let ahead (x : Fin 32) : Bool := decide ((s.sol.chans[x]).reqClk < s.clk) || decide (x < c)
       (c ∈ k.queue ∨ k.holder = some c → t.sol.banks = s.sol.banks) ∧
       (c ∉ k.queue → k.holder ≠ some c →
         t.sol.banks[bankOf c] = { k with queue := k.queue.takeWhile ahead ++ c :: k.queue.dropWhile ahead })) ∧
      t = { s with sol := t.sol })) ∧
  (∀ s : State, exec .actuationCountSave s = .next (
    if s.nvm.actSaved + 64 ≤ s.recorder.optime.toNat then
      { s with nvm := { s.nvm with
        solAct := s.sol.chans.map (·.act), mvAct := s.pwm.valves.map (·.act), actSaved := s.recorder.optime.toNat } }
    else s))

/-- Pulses (R285, R292, R294 to R296): a period start notes its time, its grid and the end of its on-interval; an interval of the whole period has no
end, and one clamped to 0 sets PSKIP and never turns the channel on (rounded to the microsecond, log 46). At the end of the on-interval a channel
that conducts turns off with PROF.ODEC, and a pulse whose BOOST has not started is skipped with PSKIP and leaves its bank's queue. At any other
time both change nothing. A chopping period of a coil that starts with a current below its phase's threshold, CHcc.PEAK in BOOST and PEAK,
CHcc.HOLD in HOLD, turns its low side on; else, and in any other phase, the low side is off (R282; to 3 % and 15 mA, within which a free value
decides: R400, log 99), with the recirculation that PROF gives the phase (R281). The odd member of a pair follows the even one and adds its
current to it (R299). What the ADC samples of that current is told later (R289; log 88). -/
def Obligations.PulsesAndChopping : Prop :=
  ((∀ (c : Fin 32) (s : State), s.periodDue c = false → exec (.pulsePeriodStart c) s = .next s) ∧
  (∀ (c : Fin 32) (f p : Nat) (d : Frac) (s : State), s.periodDue c = true → s.solDemand c = .pulse f p d →
    let n := s.onInterval c f d
    ∃ u : State, exec (.pulsePeriodStart c) s = .next u.refresh ∧
      (u.sol.chans[c]).lastStart = some s.time ∧ (u.sol.chans[c]).grid = some (pulsePeriod f, pulseOffset p (pulsePeriod f)) ∧
      (u.sol.chans[c]).full = d.isFull ∧ (u.sol.chans[c]).pulsing = true ∧
      (u.sol.chans[c]).onUntil = (if d.isFull ∨ n = 0 then none else some (after s.time n)) ∧
      ((s.sol.chans[c]).diag.getLsbD 7 = true ∨ n = 0 ∧ d.isFull = false → (u.sol.chans[c]).diag.getLsbD 7 = true) ∧
      (∀ x, x ≠ c → u.sol.chans[x] = s.sol.chans[x]) ∧
      u = { s with sol := u.sol, recorder := u.recorder, chain := u.chain, manil := { s.manil with conTx := u.manil.conTx } } ∧
      (s.Calm → Steady s u.refresh)) ∧
  (∀ (c : Fin 32) (s : State), s.onEndDue c = false → exec (.pulseOnEnd c) s = .next s) ∧
  (∀ (c : Fin 32) (s : State), s.onEndDue c = true →
    let ch := s.sol.chans[c]
    let skipped := ch.phase.unstarted
    ∃ t : State, exec (.pulseOnEnd c) s = .next t ∧
      (t.sol.chans[c]).onUntil = none ∧ (t.sol.chans[c]).full = false ∧ (t.sol.chans[c]).want = false ∧ (t.sol.chans[c]).act = ch.act ∧
      (skipped = true → (t.sol.chans[c]).diag = raise ch.diag 7 ∧
        (t.sol.chans[c]).phase = (if ch.phase = .off ∨ ch.phase = .offwait ∧ ch.decaying = true then .off else .idle)) ∧
      (skipped = false → t = { s with sol := t.sol } ∧ t.sol.chans[c] =
        { ch with
          onUntil := none, full := false, want := false, phase := .off, offAt := some s.time, decaying := true, lowSide := false
          decay := if s.profBit c 3 then .fast else .slow }) ∧
      (ch.phase = .queued → c ∉ (t.sol.banks[bankOf c]).queue) ∧
      (ch.phase = .boost ∨ ch.phase = .bnrwait → (t.sol.banks[bankOf c]).holder ≠ some c) ∧
      (∀ x, x ≠ c → t.sol.chans[x] = s.sol.chans[x]) ∧ (∀ b, b ≠ bankOf c → t.sol.banks[b] = s.sol.banks[b]) ∧
      t = { s with sol := t.sol, recorder := t.recorder, chain := t.chain, manil := { s.manil with conTx := t.manil.conTx } })) ∧
  ((∀ (c : Fin 32) (current : Nat) (s : State), s.domainOn c.val = false → exec (.choppingPeriod c current) s = .next s) ∧
  (∀ (c : Fin 32) (current : Nat) (s : State), s.domainOn c.val = true →
    let ch := s.sol.chans[c]
    let total := current + if s.leads c = true then (s.sol.chans[partner c]).coil else 0
    let threshold := if ch.phase = .hold then s.regN (Reg.hold c) else s.regN (Reg.peak c)
    let drives := ch.phase = .boost ∨ ch.phase = .peak ∨ ch.phase = .hold
    let fast := ch.phase = .boost ∧ s.profBit c 0 = true ∨ ch.phase = .peak ∧ s.profBit c 1 = true ∨ ch.phase = .hold ∧ s.profBit c 2 = true
    let measured : SolChan := { ch with coil := current }
    Answers (exec (.choppingPeriod c current) s) fun t =>
      let low := (t.sol.chans[c]).lowSide
      let chopped : SolChan :=
        { measured with
          chopClk := some s.clk, lowSide := low
          chopDecay := if ch.phase.conducts then (if fast then .fast else .slow) else ch.chopDecay }
      let next : SolChan := if s.isOdd c then measured else chopped
      t = { s with sol := { s.sol with chans := upd s.sol.chans c fun _ => next } } ∧
      (s.isOdd c = false → (drives → 100 * total + 1500 < 97 * threshold → low = true) ∧
        (¬drives ∨ 103 * threshold + 1500 ≤ 100 * total → low = false))))

/-- Diagnostics and faults (R303, R304): OLOFF, after 1 ms of IDLE on VBAT, is a flag alone; SB latches fault SB on its channel, for a pair on its
leader; SG and, at 175 °C, OTS latch the fault of the bank, and with it cause BANK on its four channels; OTW at 150 °C is an event. A channel that
faults is off. CLEAR (R305, R322, R328): CLEAR chans clears the fault latches of the channels it names and those of their banks, where no bank
that OTS has latched still reads 160 °C and no named valve has both its limits asserted; CLEAR FLTg of an inactive input clears its latch. CLEAR
FLTg while the input is active and latched is refused. -/
def Obligations.FaultsLatchAndClear : Prop :=
  ((∀ (c : Fin 32) (s : State), s.isOdd c = false → s.domainOn c.val = true → s.profBit c 11 = true → (s.sol.chans[c]).phase = .idle →
    (s.sol.chans[c]).idleClk + 1000 ≤ s.clk → s.hsPath (bankOf c) = .vbat →
    ((s.sol.banks[bankOf c]).vbatClk.any fun since => decide (since + 1000 ≤ s.clk)) = true →
    Answers (exec (.olOff c) s) fun t =>
      t.sol = { s.sol with chans := upd s.sol.chans c fun ch => { ch with diag := raise ch.diag 1 } } ∧
      t = { s with sol := t.sol, recorder := t.recorder, chain := t.chain, manil := { s.manil with conTx := t.manil.conTx } }) ∧
  (∀ (c : Fin 32) (s : State), (s.sol.chans[s.leaderOf c]).phase.conducts = true → s.Calm →
    Answers (exec (.sb c) s) fun t =>
      (t.sol.chans[s.leaderOf c]).fault.getLsbD 0 = true ∧ (t.sol.chans[s.leaderOf c]).diag.getLsbD 2 = true ∧
      t.solDemand (s.leaderOf c) = .off true ∧ Steady s t) ∧
  (∀ (b : Fin 8) (named : Option (Fin 4)) (s : State), s.hsPath b ≠ .off → s.Calm →
    Answers (exec (.sg b named) s) fun t =>
      (t.sol.banks[b]).fault.getLsbD 1 = true ∧ t.hsPath b = .off ∧
      (∀ k : Fin 4, (t.sol.chans[chanOf b k]).fault.getLsbD 3 = true ∧ t.solDemand (chanOf b k) = .off true) ∧ Steady s t) ∧
  (∀ (b : Fin 8) (temp : Int) (s : State), s.domainOn (32 + b.val) = true →
    Answers (exec (.otw b temp) s) fun t =>
      (t.sol.banks[b]).temp = temp ∧ (t.sol.banks[b]).otwNow = decide (150 ≤ temp) ∧ t.sol.chans = s.sol.chans ∧
      (t.sol.banks[b]).fault = (s.sol.banks[b]).fault ∧
      (t.sol.banks[b]).evt = (if 150 ≤ temp ∧ (s.sol.banks[b]).otwNow = false then raise (s.sol.banks[b]).evt 0 else (s.sol.banks[b]).evt) ∧
      t = { s with sol := t.sol, recorder := t.recorder, chain := t.chain, manil := { s.manil with conTx := t.manil.conTx } }) ∧
  (∀ (b : Fin 8) (temp : Int) (s : State), s.domainOn (32 + b.val) = true → s.Calm → 175 ≤ temp → (s.sol.banks[b]).fault.getLsbD 0 = false →
    Answers (exec (.ots b temp) s) fun t =>
      (t.sol.banks[b]).fault.getLsbD 0 = true ∧ (t.sol.banks[b]).evt.getLsbD 1 = true ∧ t.hsPath b = .off ∧
      (∀ k : Fin 4, (t.sol.chans[chanOf b k]).fault.getLsbD 3 = true ∧ t.solDemand (chanOf b k) = .off true) ∧ Steady s t)) ∧
  ((∀ (ln : LineHdr) (chans : List ChanItem) (s : State), s.Hears ln → s.Lets ln .write .clear → s.Calm → s.listErr .all chans = none →
    s.hotErr (s.listChans chans) = none → s.bothErr (s.listChans chans) = none →
    Replies (exec (.clearChannels ln chans) s) ln.src [] fun u =>
      (∀ c : Fin 32, chS c ∈ s.listChans chans → (u.sol.chans[c]).fault = 0 ∧ (u.sol.banks[bankOf c]).fault = 0) ∧
      (∀ v : Fin 8, chV v ∈ s.listChans chans → (u.pwm.valves[v]).fault = 0) ∧ Steady s u) ∧
  (∀ (ln : LineHdr) (g : Fin 3) (s : State), s.Hears ln → s.Lets ln .write .clear → s.Calm → s.fltActive.getLsbD g.val = false →
    Replies (exec (.clearFlt ln { val := g.val }) s) ln.src [] fun u =>
      u.pwm.fltLatch = drop s.pwm.fltLatch g.val ∧ u.pwm.fltEvt = s.pwm.fltEvt ∧ Steady s u) ∧
  (∀ (ln : LineHdr) (g : Fin 3) (s : State), s.Hears ln → s.Lets ln .write .clear → s.fltActive.getLsbD g.val = true →
    s.pwm.fltLatch.getLsbD g.val = true →
    Refuses s (exec (.clearFlt ln { val := g.val }) s) ln.src { code := 18, detail := [.word "FLT"] }))

/-! ### Slices, valves and the pilot (chapters 12 and 13) -/

/-- A period start (R310, R315): a slice whose start is due within the microsecond loads its shadow and runs a period of natural length held to PMIN
and PMAX before any rounding, the CLAMP flag saying whether it was held; a sync pulse that comes while the previous period runs is skipped, with
its SMISS flag. The calibrator and the bootstraps (R313, R318): K from 20 to 48 taps in force, CALFAIL outside that range; a bootstrap that is due
is refreshed: its high side turns off, and its low side is on for 400 ns, 96 ticks, after one dead time. A fault input that is enabled and becomes
active (R320, R321): the group's latch and flag are set and its four slices are forced, and each valve they drive is at its safe level, unless it
is locked or faults. One that is disabled, or goes inactive, or finds its latch set (log 50), only shows its level. -/
def Obligations.SlicesFollowTheirShadow : Prop :=
  ((∀ (i : Fin 12) (tick : Nat) (s : State), s.startDue i = some tick → (s.pwm.slices[i]).endTick ≤ tick →
    ((s.pwm.slices[i]).forced = false ∨ s.groupFault i = true) →
    Answers (exec (.periodStart i) s) fun t =>
      let w := t.pwm.slices[i]
      let natural := naturalPeriod (bit (s.reg (Reg.pwmCfg i)) 1) (s.regN (Reg.pwmT i)) (s.regN (Reg.pwmPmax i)) (s.sliceDuty i)
      w.startTick = tick ∧ w.endTick = tick + w.per ∧ w.duty = BitVec.ofNat 24 (s.sliceDuty i) ∧
      let below := natural.1 < s.regN (Reg.pwmPmin i) * natural.2
      let above := s.regN (Reg.pwmPmax i) * natural.2 < natural.1
      w.per = (if below then s.regN (Reg.pwmPmin i) else if above then s.regN (Reg.pwmPmax i) else divNear natural.1 natural.2) ∧
      w.clamped = decide (below ∨ above) ∧ w.count = ((s.pwm.slices[i]).count + 1) % 16 ∧
      t = { s with pwm := { s.pwm with slices := t.pwm.slices, valves := t.pwm.valves } } ∧
      (∀ j : Fin 12, j ≠ i → j.val ≠ i.val + 1 → t.pwm.slices[j] = s.pwm.slices[j])) ∧
  (∀ (i : Fin 12) (tick : Nat) (s : State), s.startDue i = some tick → tick < (s.pwm.slices[i]).endTick →
    Answers (exec (.periodStart i) s) fun t =>
      t.pwm = { s.pwm with
        slices := upd s.pwm.slices i fun w => { w with syncs := w.syncs.drop 1 }, evt := raise s.pwm.evt i.val } ∧
      t = { s with pwm := t.pwm, recorder := (s.record 0x203 i.val 0).recorder })) ∧
  ((∀ (taps : Nat) (s : State), s.coreUp = true → s.domainOn 111 = true → 20 ≤ taps → taps ≤ 48 →
    exec (.calibration taps) s = .next { s with pwm := { s.pwm with taps := taps, calOk := true } }) ∧
  (∀ (taps : Nat) (s : State), s.coreUp = true → s.domainOn 111 = true → (taps < 20 ∨ 48 < taps) →
    Answers (exec (.calibration taps) s) fun t =>
      t.pwm = { s.pwm with taps := Nat.min 48 taps, calOk := false, evt := raise s.pwm.evt 12 } ∧
      t = { s with pwm := t.pwm, recorder := t.recorder }) ∧
  (∀ (v : Fin 8) (s : State), (s.gates v).ha = true → (s.pwm.valves[v]).lowAtA + 2000 ≤ s.clk →
    exec (.bootstrapRefresh v .a) s = .next { s with pwm := { s.pwm with valves := upd s.pwm.valves v fun y =>
      { y with lowAtA := s.clk + (s.deadTicks v + 96) / 240, pulseA := some (240 * s.clk) } } }) ∧
  (∀ (v : Fin 8) (s : State), (s.gates v).hb = true → (s.pwm.valves[v]).lowAtB + 2000 ≤ s.clk →
    exec (.bootstrapRefresh v .b) s = .next { s with pwm := { s.pwm with valves := upd s.pwm.valves v fun y =>
      { y with lowAtB := s.clk + (s.deadTicks v + 96) / 240, pulseB := some (240 * s.clk) } } })) ∧
  ((∀ (g : Fin 3) (s : State), s.coreUp = true → bit (s.reg Reg.fltCfg) g.val = true → s.pwm.fltLatch.getLsbD g.val = false → s.Calm →
    Answers (exec (.fltTrip g true) s) fun t =>
      t.pwm.fltLatch = raise s.pwm.fltLatch g.val ∧ t.pwm.fltEvt = raise s.pwm.fltEvt g.val ∧
      t.fltActive.getLsbD g.val = true ∧
      (∀ i : Fin 12, i.val / 4 = g.val → t.groupFault i = true ∧ t.sliceForced i = true) ∧
      (∀ v : Fin 8, (t.driver v).val / 4 = g.val → t.valveDemand v = .safe ∨ t.valveDemand v = .locked ∨ t.valveDemand v = .fault) ∧ Steady s t) ∧
  (∀ (g : Fin 3) (active : Bool) (s : State),
    (s.coreUp = false ∨ active = false ∨ bit (s.reg Reg.fltCfg) g.val = false ∨ s.pwm.fltLatch.getLsbD g.val = true) →
    exec (.fltTrip g active) s = .next { s with pwm := { s.pwm with
      fltPin := put s.pwm.fltPin g.val (xor active (bit (s.reg Reg.fltCfg) (3 + g.val))) } }))

/-- What a limit input does (R325 to R327): an edge that follows the last by less than N samples changes nothing; a limit that is disabled, or of a
predriver that is no valve, changes its level alone. An enabled one is a transition of the run or brake in progress. Both limits asserted are a
BOTH fault, more transitions than MVv.CFG allows a CHATTER fault; the limit of the end a run makes for stops it there, with its brake and its
position; the other end's is a WRONGEND fault; anything else changes nothing more. A fault ends the run and brakes, but a bridge that a higher
demand holds at its safe level stays there (R323), and the brake that ends a handover's run is not prolonged. That transitions count through the
arrival brake, and CHATTER before an arrival of the same cycle, is log 51. The other ends of runs (R325 to R327): a timed end stops a run as a
limit does; a run towards a limit that outlasts MVv.TMAX is a TIMEOUT fault, but for one of a handover or a limit action (logs 29 and 51); at the
end of its brake a bridge coasts, and a handover or limit action that waited for it goes on. At any other time each changes nothing. The position
estimate (R330, R331): each millisecond a running valve's estimate moves by the duty in force over CHcc.LAT and stays within 0 and 1000, POS its
integer part (log 52); a valve whose demand is no position does no more, and one whose domain is off stays as it is. Before the millisecond has
passed nothing changes. -/
def Obligations.ValvesRunToTheirEnds : Prop :=
  ((∀ (v : Fin 8) (e : ValveEnd) (level : Bool) (s : State), s.coreUp = false ∨ s.domainOn (48 + v.val) = false ∨
    (s.pwm.valves[v]).limit e = level ∨ filterBars (s.reg (Reg.mvLimf v)) ((s.pwm.valves[v]).limClk e) s.clk = true →
    exec (.limitInput v e level) s = .next s) ∧
  (∀ (v : Fin 8) (e : ValveEnd) (level : Bool) (s : State), s.coreUp = true → s.domainOn (48 + v.val) = true →
    (s.pwm.valves[v]).limit e ≠ level → filterBars (s.reg (Reg.mvLimf v)) ((s.pwm.valves[v]).limClk e) s.clk = false →
    let y := s.pwm.valves[v]
    let inUse := s.limEnabled v e = true ∧ (s.valveMode v).runs = true
    let moving := y.run.isSome = true ∨ y.brakeUntil.isSome = true
    let w := s.modValve v fun x =>
      { x.setLimit e level s.clk with trans := if inUse ∧ moving then y.trans + 1 else y.trans }
    let both := w.limAsserted v .open_ = true ∧ w.limAsserted v .closed = true ∧ y.fault.getLsbD 1 = false
    let chatters := moving ∧ y.fault = 0 ∧ fld (s.reg (Reg.mvCfg v)) 15 4 ≤ y.trans
    let fault (k : Nat) (u : State) := (u.pwm.valves[v]).fault = raise y.fault k ∧ (u.pwm.valves[v]).evt = raise y.evt k ∧
      (u.pwm.valves[v]).posValid = false ∧
      (y.demand = .safe → (u.pwm.valves[v]).run = y.run ∧ (u.pwm.valves[v]).bridge = y.bridge ∧ (u.pwm.valves[v]).brakeUntil = y.brakeUntil) ∧
      (y.demand ≠ .safe → (u.pwm.valves[v]).run = none ∧ (u.pwm.valves[v]).bridge = .brake ∧
        (u.pwm.valves[v]).brakeUntil = (if y.runsOut then y.brakeUntil else some (s.clk + 1000 * s.regN (Reg.mvBrake v))))
    (¬inUse → exec (.limitInput v e level) s = .next w) ∧
    (inUse → ¬both → ¬chatters → (y.run = none ∨ w.limAsserted v e = false) → exec (.limitInput v e level) s = .next w) ∧
    (inUse → (both ∨ chatters ∨ y.run.isSome = true ∧ w.limAsserted v e = true) →
      ∃ u : State, exec (.limitInput v e level) s = .next u.refresh ∧
        (both → fault 1 u) ∧ (¬both → chatters → fault 2 u) ∧
        (∀ r ∈ y.run, ¬both → ¬chatters → r.target ≠ e → fault 0 u) ∧
        (∀ r ∈ y.run, ¬both → ¬chatters → r.target = e → (u.pwm.valves[v]).pos = endPos e ∧ (u.pwm.valves[v]).posValid = true ∧
          (u.pwm.valves[v]).fault = y.fault ∧ (u.pwm.valves[v]).run = none ∧ (u.pwm.valves[v]).bridge = .brake ∧
          (u.pwm.valves[v]).brakeUntil = some (s.clk + 1000 * s.regN (Reg.mvBrake v))) ∧
        (∀ x, x ≠ v → u.pwm.valves[x] = s.pwm.valves[x]) ∧ u.pwm.slices = s.pwm.slices ∧
        u = { s with
          pwm := u.pwm, engine := u.engine, power := u.power, recorder := u.recorder, chain := u.chain
          manil := { s.manil with conTx := u.manil.conTx } } ∧ (s.Calm → Steady s u.refresh)))) ∧
  ((∀ (v : Fin 8) (s : State), (∀ r ∈ (s.pwm.valves[v]).run, r.timedEnd.any s.reached = false) →
    exec (.valveTimedEnd v) s = .next s) ∧
  (∀ (v : Fin 8) (r : Run) (at_ : ChainTime) (s : State), (s.pwm.valves[v]).run = some r → r.timedEnd = some at_ → s.reached at_ = true →
    ∃ u : State, exec (.valveTimedEnd v) s = .next u.refresh ∧
      (u.pwm.valves[v]).pos = endPos r.target ∧ (u.pwm.valves[v]).posValid = true ∧ (u.pwm.valves[v]).run = none ∧
      (u.pwm.valves[v]).bridge = .brake ∧ (u.pwm.valves[v]).brakeUntil = some (s.clk + 1000 * s.regN (Reg.mvBrake v)) ∧
      (u.pwm.valves[v]).atOpen = decide (r.target = .open_) ∧ (u.pwm.valves[v]).atClosed = decide (r.target = .closed) ∧
      (∀ x, x ≠ v → u.pwm.valves[x] = s.pwm.valves[x]) ∧ u = { s with pwm := u.pwm, recorder := u.recorder } ∧
      (s.Calm → Steady s u.refresh)) ∧
  (∀ (v : Fin 8) (s : State), (∀ r ∈ (s.pwm.valves[v]).run, s.limEnabled v r.target = false ∨ r.why = .handover ∨ r.why = .limit ∨
    s.clk < r.startClk + 1000 * s.regN (Reg.mvTmax v)) → exec (.homeTimeout v) s = .next s) ∧
  (∀ (v : Fin 8) (r : Run) (s : State), (s.pwm.valves[v]).run = some r → s.limEnabled v r.target = true → r.why ≠ .handover → r.why ≠ .limit →
    r.startClk + 1000 * s.regN (Reg.mvTmax v) ≤ s.clk →
    ∃ u : State, exec (.homeTimeout v) s = .next u.refresh ∧
      (u.pwm.valves[v]).fault = raise (s.pwm.valves[v]).fault 3 ∧ (u.pwm.valves[v]).evt = raise (s.pwm.valves[v]).evt 3 ∧
      ((s.pwm.valves[v]).demand ≠ .safe → (u.pwm.valves[v]).run = none ∧ (u.pwm.valves[v]).bridge = .brake) ∧
      ((s.pwm.valves[v]).demand = .safe → (u.pwm.valves[v]).run = some r ∧ (u.pwm.valves[v]).bridge = (s.pwm.valves[v]).bridge) ∧
      (u.pwm.valves[v]).posValid = false ∧
      (∀ x, x ≠ v → u.pwm.valves[x] = s.pwm.valves[x]) ∧
      u = { s with
        pwm := u.pwm, engine := u.engine, recorder := u.recorder, chain := u.chain, manil := { s.manil with conTx := u.manil.conTx } } ∧
      (s.Calm → Steady s u.refresh)) ∧
  (∀ (v : Fin 8) (s : State), (∀ due ∈ (s.pwm.valves[v]).brakeUntil, s.clk < due) → exec (.brakeEnd v) s = .next s) ∧
  (∀ (v : Fin 8) (due : Nat) (s : State), (s.pwm.valves[v]).brakeUntil = some due → due ≤ s.clk →
    let y := s.pwm.valves[v]
    ∃ u : State, exec (.brakeEnd v) s = .next (if s.power.handover.isSome ∨ s.unit.limitAction then u.refresh else u) ∧
      (u.pwm.valves[v]).brakeUntil = none ∧ (u.pwm.valves[v]).bridge = (if y.bridge = .brake then .coast else y.bridge) ∧
      (u.pwm.valves[v]).run = y.run ∧ (u.pwm.valves[v]).pos = y.pos ∧ (u.pwm.valves[v]).fault = y.fault ∧
      (∀ x, x ≠ v → u.pwm.valves[x] = s.pwm.valves[x]) ∧ u = { s with pwm := { s.pwm with valves := u.pwm.valves } })) ∧
  ((∀ s : State, s.clk < s.pwm.posDue → exec .positionUpdate s = .next s) ∧
  (∀ s : State, s.pwm.posDue ≤ s.clk →
    ∃ u : State, exec .positionUpdate s = .next u.refresh ∧ u.pwm.posDue = s.clk + 1000 ∧
      (∀ v : Fin 8, s.domainOn (48 + v.val) = false → u.pwm.valves[v] = s.pwm.valves[v]) ∧
      (∀ v : Fin 8, s.domainOn (48 + v.val) = true → (s.pwm.valves[v]).demand ≠ .position → (s.pwm.valves[v]).demand ≠ .idle →
        u.pwm.valves[v] = (s.movePos v).pwm.valves[v]) ∧ u.pwm.slices = s.pwm.slices ∧
      u = { s with
        pwm := u.pwm, engine := u.engine, power := u.power, recorder := u.recorder, chain := u.chain
        manil := { s.manil with conTx := u.manil.conTx } } ∧ (s.Calm → Steady s u.refresh)) ∧
  (∀ (v : Fin 8) (s : State), (s.pwm.valves[v]).bridge = .running → (s.pwm.slices[s.driver v]).running = true → s.lat (chV v) ≠ 0 →
    let unit : Int := 100 * (s.lat (chV v) : Int)
    let y := (s.movePos v).pwm.valves[v]
    y.pos ≤ 1000 ∧ (y.pos : Int) * unit + y.posFrac =
      clampZ 0 (1000 * unit) (((s.pwm.valves[v]).pos : Int) * unit + (s.pwm.valves[v]).posFrac + 1000000 * s.valveDuty v)))

/-- Loops (R335, R337, R344, R346): at a grid point a loop samples, keeps its output within OMIN and OMAX unless it holds, and owes its write for
LOOPl.WPH later; at its write phase the value reaches the free slice or the MVv.PTGT it drives, or, not computed in time, is missed with its MISS
flag and a record. -/
def Obligations.LoopsSampleAndWrite : Prop :=
  (∀ (l : Fin 8) (s : State), s.sampleDue l = true →
    Answers (exec (.loopSample l) s) fun t =>
      let x := s.pilot.loops[l]
      let y := t.pilot.loops[l]
      y.started = true ∧ y.scnt = x.scnt + 1 ∧ y.lastAt = some s.time ∧
      y.writes = x.writes ++ [{ due := s.clk + s.regN (Reg.loop l 3), u := y.u, out := s.loopFld l 6 4 }] ∧
      (y.st = .run ∨ y.st = .manual → s.regN (Reg.loop l 4) ≤ s.regN (Reg.loop l 5) →
        (s.regN (Reg.loop l 4) : Int) ≤ y.u ∧ y.u ≤ (s.regN (Reg.loop l 5) : Int)) ∧
      (y.causes ≠ 0 → y.st = .hold ∧ (x.st ≠ .off → y.u = x.u ∧ y.i = x.i)) ∧
      (∀ m, m ≠ l → t.pilot.loops[m] = s.pilot.loops[m]) ∧
      t = { s with regs := t.regs, pilot := { s.pilot with loops := t.pilot.loops } } ∧
      (bit (s.reg (Reg.loop l 13)) 0 = false → t.regs = s.regs)) ∧
  (∀ (l : Fin 8) (o : LoopOutput) (rest : List LoopOutput) (s : State), (s.pilot.loops[l]).writes = o :: rest → o.due ≤ s.clk →
    Answers (exec (.loopWrite l false) s) fun t =>
      (t.pilot.loops[l]).writes = rest ∧ (t.pilot.loops[l]).misses = (s.pilot.loops[l]).misses + 1 ∧ t.pilot.evt = raise s.pilot.evt l.val ∧
      t = { s with pilot := t.pilot, recorder := t.recorder }) ∧
  (∀ (l : Fin 8) (o : LoopOutput) (rest : List LoopOutput) (k : Fin 4) (s : State), (s.pilot.loops[l]).writes = o :: rest → o.due ≤ s.clk →
    o.out = k.val + 1 →
    Answers (exec (.loopWrite l true) s) fun t =>
      (t.pilot.loops[l]).writes = rest ∧ (t.pilot.loops[l]).misses = 0 ∧
      t.pwm = { s.pwm with slices := upd s.pwm.slices ⟨8 + k.val, by omega⟩ fun w =>
        { w with shadow := BitVec.ofInt 24 (roundDiv (o.u * 16777215) 1048576) } } ∧
      t = { s with pilot := t.pilot, pwm := t.pwm }) ∧
  (∀ (l : Fin 8) (o : LoopOutput) (rest : List LoopOutput) (v : Fin 8) (s : State), (s.pilot.loops[l]).writes = o :: rest → o.due ≤ s.clk →
    o.out = v.val + 5 → s.Calm →
    Answers (exec (.loopWrite l true) s) fun t =>
      (t.pilot.loops[l]).writes = rest ∧ (t.pilot.loops[l]).misses = 0 ∧
      (t.pwm.valves[v]).ptgt = (roundDiv (o.u * 1000) 1048576).toNat ∧ Steady { s with pilot := t.pilot } t)

/-- Analogue inputs and trace banks (R353 to R357): a conversion takes the next enabled channel, and its code is the ratio to the reference in
16384ths; that of a channel without a usable reference is a free value (the model's choice, log 55), and with no channel enabled, or its domain
off, nothing changes. A bank that captures takes one entry of its node: in FILL it waits once it holds PRE of them; in WAIT it keeps the newest
PRE until an entry meets the trigger; that entry, or in FILL or WAIT the first after a FORCE, is the trigger entry, TIDX the entries before it,
and 2047 − PRE entries are left to POST, after which the bank is done: with PRE before the trigger it then holds 2048. No other bank changes, but
that the next one, where it waits, sees that this one has triggered. A bank that has no capture due stays as it is. -/
def Obligations.ConversionsAndCaptures : Prop :=
  (∀ (vin vref : Nat) (n : Fin 12) (s : State), s.coreUp = true → s.domainOn 108 = true →
    nextAin (bit (s.reg Reg.ainCfg)) s.pilot.ainNext = some n → vref ≠ 0 →
    Answers (exec (.ainConversion vin vref) s) fun t =>
      bit (s.reg Reg.ainCfg) n.val = true ∧
      t.pilot = { s.pilot with
        ain := s.pilot.ain.set n.val (some (BitVec.ofNat 14 (Nat.min 16383
          (divNear (16384 * vin) (if bit (s.reg Reg.ainCfg) (12 + n.val) then vref else 2048000))))) n.isLt
        ainNext := n.val + 1 } ∧ t = { s with pilot := t.pilot }) ∧
  (∀ (vin : Nat) (n : Fin 12) (s : State), s.coreUp = true → s.domainOn 108 = true →
    nextAin (bit (s.reg Reg.ainCfg)) s.pilot.ainNext = some n →
    Answers (exec (.ainConversion vin 0) s) fun t =>
      (t.pilot.ain[n.val]).isSome = true ∧ (∀ k : Fin 12, k ≠ n → t.pilot.ain[k] = s.pilot.ain[k]) ∧ t.pilot.ainNext = n.val + 1 ∧
      t = { s with pilot := { s.pilot with ain := t.pilot.ain, ainNext := t.pilot.ainNext } }) ∧
  (∀ (vin vref : Nat) (s : State), s.coreUp = false ∨ s.domainOn 108 = false ∨ nextAin (bit (s.reg Reg.ainCfg)) s.pilot.ainNext = none →
    exec (.ainConversion vin vref) s = .next s) ∧
  (∀ (b : Fin 4) (s : State), s.captureDue b = false → exec (.traceCapture b) s = .next s) ∧
  (∀ (b : Fin 4) (s : State), s.captureDue b = true → (s.pilot.traces[b]).st = .fill → (s.pilot.traces[b]).forced = false →
    (s.pilot.traces[b]).triggered = false →
    Answers (exec (.traceCapture b) s) fun t =>
      let x := s.pilot.traces[b]
      (t.pilot.traces[b]).entries = x.entries ++ [s.nodeValue (fld x.cfg 0 6)] ∧
      (t.pilot.traces[b]).st = (if x.pre ≤ x.entries.length + 1 then .wait else .fill) ∧ (t.pilot.traces[b]).owed = false ∧
      (∀ d, d ≠ b → t.pilot.traces[d] = s.pilot.traces[d]) ∧ t = { s with pilot := { s.pilot with traces := t.pilot.traces } }) ∧
  (∀ (b : Fin 4) (s : State), s.captureDue b = true → (s.pilot.traces[b]).st = .wait → (s.pilot.traces[b]).forced = false →
    (s.pilot.traces[b]).triggered = false →
    let x := s.pilot.traces[b]
    let entry := s.nodeValue (fld x.cfg 0 6)
    Answers (exec (.traceCapture b) s) fun t =>
      let y := t.pilot.traces[b]
      (x.triggers entry (s.sourceLoop x) = false → y.st = .wait ∧ y.entries = (x.entries ++ [entry]).drop (x.entries.length + 1 - x.pre) ∧
        y.triggered = false ∧ ∀ d, d ≠ b → t.pilot.traces[d] = s.pilot.traces[d]) ∧
      (x.triggers entry (s.sourceLoop x) = true → y.triggered = true ∧ y.tidx = x.entries.length ∧ y.trigTime = s.time ∧
        y.entries = x.entries ++ [entry] ∧ y.left = 2047 - x.pre ∧ y.st = (if x.pre = 2047 then .done else .post) ∧
        (x.entries.length = x.pre → x.pre ≤ 2047 → y.entries.length + y.left = 2048) ∧
        (∀ d : Fin 4, d ≠ b → t.pilot.traces[d] =
          if d = follower b ∧ (s.pilot.traces[d]).st = .wait then { s.pilot.traces[d] with leaderHit := true } else s.pilot.traces[d])) ∧
      t = { s with pilot := { s.pilot with traces := t.pilot.traces } }) ∧
  (∀ (b : Fin 4) (s : State), s.captureDue b = true → (s.pilot.traces[b]).st = .fill ∨ (s.pilot.traces[b]).st = .wait →
    (s.pilot.traces[b]).forced = true → (s.pilot.traces[b]).triggered = false →
    Answers (exec (.traceCapture b) s) fun t =>
      let x := s.pilot.traces[b]
      let y := t.pilot.traces[b]
      y.triggered = true ∧ y.forced = false ∧ y.tidx = x.entries.length ∧ y.trigTime = s.time ∧
      y.entries = x.entries ++ [s.nodeValue (fld x.cfg 0 6)] ∧ y.left = 2047 - x.pre ∧ y.st = (if x.pre = 2047 then .done else .post) ∧
      (∀ d : Fin 4, d ≠ b → t.pilot.traces[d] =
        if d = follower b ∧ (s.pilot.traces[d]).st = .wait then { s.pilot.traces[d] with leaderHit := true } else s.pilot.traces[d]) ∧
      t = { s with pilot := { s.pilot with traces := t.pilot.traces } }) ∧
  (∀ (b : Fin 4) (s : State), s.captureDue b = true → (s.pilot.traces[b]).st = .post →
    Answers (exec (.traceCapture b) s) fun t =>
      let x := s.pilot.traces[b]
      (t.pilot.traces[b]).entries = x.entries ++ [s.nodeValue (fld x.cfg 0 6)] ∧ (t.pilot.traces[b]).left = x.left - 1 ∧
      (t.pilot.traces[b]).st = (if x.left ≤ 1 then .done else .post) ∧
      (1 ≤ x.left → (t.pilot.traces[b]).entries.length + (t.pilot.traces[b]).left = x.entries.length + x.left ∧
        (x.entries.length + x.left = 2048 → ((t.pilot.traces[b]).st = .done ↔ (t.pilot.traces[b]).entries.length = 2048))) ∧
      (∀ d, d ≠ b → t.pilot.traces[d] = s.pilot.traces[d]) ∧
      t = { s with pilot := { s.pilot with traces := t.pilot.traces } })

/-! ### Latches and safety inputs (chapters 8 and 14) -/

/-- KILL (R142, R205, R209, R275): K.04 is forwarded in its direction of travel, on UP ahead of the UP buffer, which waits for one character more
(R141), and latches; every coil and every valve is off, no crossing is decided or cast and no level scheduled, everything loaded is stale, and a
unit in READY, UNDERWAY or STRANDED is MOORED. That a valve keeps its safe level there, where R22 has outputs off in MOORED, is log 45. -/
def Obligations.KillTurnsEveryOutputOff : Prop :=
  ∀ (p : Port) (s : State), s.TakesIn p → s.unit.kill = false → s.Calm → s.phase = .running →
    Answers (exec (.kill p) s) fun t =>
      t.unit.kill = true ∧ t.unit.st.armed = false ∧ (s.unit.st.armed = false → t.unit.st = s.unit.st) ∧
      (s.unit.st.armed = true → t.unit.st = .moored) ∧
      (∀ c : Fin 32, t.solDemand c = .off true ∧ (t.isOdd c = false → (t.sol.chans[c]).phase.conducts = false)) ∧
      (∀ v : Fin 8, t.valveDemand v = .safe ∨ t.valveDemand v = .locked) ∧
      (∀ c : Fin 40, (t.engine.chans[c]).level = .closed ∧ (t.engine.chans[c]).decided = [] ∧
        (∀ k, (t.engine.chans[c]).cur = some k → k.stage = .landed) ∧
        ∀ x ∈ (t.engine.chans[c]).manifest, x.stale = true) ∧
      (p = s.chain.upPort → t.chain.dnWire = (s.sendDn (.char 0x104)).chain.dnWire) ∧
      (p ≠ s.chain.upPort → t.chain.upWire = s.chain.upWire ++ [.char 0x104] ∧ t.chain.upBusy = s.chain.upBusy + s.clocks.charTime) ∧
      Drives s t

/-- Safety inputs (R360 to R364, R373): a change within 2 samples of the last one of its channel is none; the inputs of a pair that does not run only
take their levels; a stop of a pair with function GENERIC counts, sets its event and tells; one with function STOP also latches and turns every
output off; one with FOLD or PRESENCE turns off the channels of its scope, whatever the unit's state; a pair that reads run again tells, and no
latch clears. A deciding check that falls due in the same microsecond comes first (Table 14.4). -/
def Obligations.SafetyInputsAct : Prop :=
  (∀ (p : Fin 4) (ch : PairChannel) (level both : Bool) (s : State),
    ((s.safety.pairs[p]).level ch = level ∨ (s.safety.pairs[p]).bars ch s.clk = true) → exec (.safetyInput p ch level both) s = .next s) ∧
  (∀ (p : Fin 4) (ch : PairChannel) (level both : Bool) (s : State), (s.safety.pairs[p]).level ch ≠ level →
    (s.safety.pairs[p]).bars ch s.clk = false → (s.safety.pairs[p]).active = false →
    exec (.safetyInput p ch level both) s =
      .next { s with safety := { s.safety with pairs := upd s.safety.pairs p fun q => q.changed ch level both s.clk } }) ∧
  (∀ (p : Fin 4) (ch : PairChannel) (level both : Bool) (s : State), s.coreUp = true → (s.safety.pairs[p]).level ch ≠ level →
    (s.safety.pairs[p]).bars ch s.clk = false → (s.safety.pairs[p]).active = true → s.discrepDue p = false → s.effStop p = false → s.pairFunc p = .generic →
    s.wouldStop p ((s.safety.pairs[p]).changed ch level both s.clk) = true →
    Answers (exec (.safetyInput p ch level both) s) fun t =>
      (t.safety.pairs[p]).trips = satInc (s.safety.pairs[p]).trips ∧ (t.safety.pairs[p]).latch = (s.safety.pairs[p]).latch ∧
      t.effStop p = true ∧ t.safety.evt = raise s.safety.evt p.val ∧ (∀ q, q ≠ p → t.safety.pairs[q] = s.safety.pairs[q]) ∧
      t = { s with safety := t.safety, recorder := t.recorder, chain := t.chain, manil := { s.manil with conTx := t.manil.conTx } }) ∧
  (∀ (p : Fin 4) (ch : PairChannel) (level both : Bool) (s : State), s.coreUp = true → (s.safety.pairs[p]).level ch ≠ level →
    (s.safety.pairs[p]).bars ch s.clk = false → (s.safety.pairs[p]).active = true → s.discrepDue p = false → s.effStop p = false → s.pairFunc p = .stop → s.Calm → s.phase = .running →
    s.wouldStop p ((s.safety.pairs[p]).changed ch level both s.clk) = true →
    Answers (exec (.safetyInput p ch level both) s) fun t =>
      (t.safety.pairs[p]).latch = true ∧ (t.safety.pairs[p]).trips = satInc (s.safety.pairs[p]).trips ∧ t.unit.st.armed = false ∧
      (∀ c : Fin 32, t.solDemand c = .off true) ∧ (∀ v : Fin 8, t.valveDemand v = .safe ∨ t.valveDemand v = .locked) ∧
      (∀ c : Fin 40, t.killed c = true) ∧ Drives s t) ∧
  (∀ (p : Fin 4) (ch : PairChannel) (level both : Bool) (s : State), s.coreUp = true → (s.safety.pairs[p]).level ch ≠ level →
    (s.safety.pairs[p]).bars ch s.clk = false → (s.safety.pairs[p]).active = true → s.discrepDue p = false → s.effStop p = false → s.pairFunc p = .fold ∨ s.pairFunc p = .presence → s.Calm →
    s.wouldStop p ((s.safety.pairs[p]).changed ch level both s.clk) = true →
    Answers (exec (.safetyInput p ch level both) s) fun t =>
      (t.safety.pairs[p]).trips = satInc (s.safety.pairs[p]).trips ∧ t.unit = s.unit ∧
      (∀ c : Fin 40, s.inMask p c = true → t.killed c = true ∧ (t.engine.chans[c]).decided = [] ∧ (t.engine.chans[c]).level = .closed) ∧
      (∀ c : Fin 32, s.inMask p (chS c) = true → t.solDemand c = .off true) ∧ Steady { s with safety := t.safety } t) ∧
  (∀ (p : Fin 4) (ch : PairChannel) (level both : Bool) (s : State), s.coreUp = true → (s.safety.pairs[p]).level ch ≠ level →
    (s.safety.pairs[p]).bars ch s.clk = false → (s.safety.pairs[p]).active = true → s.discrepDue p = false → s.effStop p = true → s.Calm →
    s.wouldStop p ((s.safety.pairs[p]).changed ch level both s.clk) = false →
    Answers (exec (.safetyInput p ch level both) s) fun t =>
      t.effStop p = false ∧ t.safety.evt = raise s.safety.evt (4 + p.val) ∧ (t.safety.pairs[p]).latch = (s.safety.pairs[p]).latch ∧
      (t.safety.pairs[p]).runSince.isSome = true ∧ Steady { s with safety := t.safety } t) ∧
  (∀ (p : Fin 4) (ch : PairChannel) (level both : Bool) (s : State), s.coreUp = true → (s.safety.pairs[p]).level ch ≠ level →
    (s.safety.pairs[p]).bars ch s.clk = false → s.discrepDue p = true →
    Answers (exec (.discrepancyFault p) s) fun u => exec (.safetyInput p ch level both) s = exec (.safetyInput p ch level both) u)

/-- A disagreement that lasts (R365, R366): at its deciding check, Td + 1 ms after it began, the pair faults; in a pair with a function the unit
enters SAFE with cause DISCREP, unless it is in DRYDOCK. -/
def Obligations.DiscrepanciesEndInSafe : Prop :=
  (∀ (p : Fin 4) (s : State), s.coreUp = true → s.discrepDue p = true → s.pairFunc p = .generic →
    Answers (exec (.discrepancyFault p) s) fun t =>
      (t.safety.pairs[p]).discrep = true ∧ t.safety.evt = raise s.safety.evt (8 + p.val) ∧ (∀ q, q ≠ p → t.safety.pairs[q] = s.safety.pairs[q]) ∧
      t = { s with safety := t.safety, recorder := t.recorder, chain := t.chain, manil := { s.manil with conTx := t.manil.conTx } }) ∧
  (∀ (p : Fin 4) (s : State), s.phase = .running → s.discrepDue p = true → s.pairFunc p ≠ .generic → s.power.handover = none →
    Answers (exec (.discrepancyFault p) s) fun t =>
      (t.safety.pairs[p]).discrep = true ∧ t.unit.safe.getLsbD 2 = true ∧
      t.unit.st = (if s.unit.st = .drydock then .drydock else .safe) ∧ (∀ c : Fin 40, t.inScope p c = true → t.killed c = true) ∧ Drives s t) ∧
  (∀ (p : Fin 4) (at_ : Nat) (s : State), (s.safety.pairs[p]).active = true → (s.safety.pairs[p]).run10 = false →
    (s.safety.pairs[p]).runSince = some at_ → at_ + 10000 ≤ s.clk →
    exec (.run10 p) s = .next { s with safety := { s.safety with pairs := upd s.safety.pairs p fun q => { q with run10 := true } } })

/-- The KILL line latches as K.04 does, and RESUME clears the latches, where every latched or faulted pair reads run for 10 ms (R205, R367): with
DISCREP the last SAFE cause it enters MOORED. Else RESUME is refused. The KILL latch does not act twice: K.04 that finds it set is forwarded, as
R142 has every K.04, and nothing else (log 43). -/
def Obligations.KillAndResume : Prop :=
  ((∀ (ln : LineHdr) (s : State), s.Hears ln → s.Lets ln .write .always →
    Replies (exec (.killLine ln) s) ln.src [] fun u => u = s.latchKill ∧ u.unit.kill = true) ∧
  (∀ (ln : LineHdr) (s : State), s.Hears ln → s.Lets ln .write .moorOrSafe → s.Calm → s.resumeFails = false →
    Replies (exec (.resume ln) s) ln.src [] fun u =>
      u.unit.kill = false ∧ (∀ p : Fin 4, (u.safety.pairs[p]).latch = false ∧ (u.safety.pairs[p]).discrep = false) ∧
      u.unit.safe.getLsbD 2 = false ∧ (s.unit.st = .safe → s.unit.safe = 4 → u.unit.st = .moored) ∧
      (s.unit.st ≠ .safe → u.unit.st = s.unit.st) ∧ u.unit.shut = s.unit.shut ∧ Drives s u) ∧
  (∀ (ln : LineHdr) (p : Fin 4) (s : State), s.Hears ln → s.Lets ln .write .moorOrSafe →
    ((s.safety.pairs[p]).latch = true ∨ (s.safety.pairs[p]).discrep = true) → (s.safety.pairs[p]).run10 = false →
    Refuses s (exec (.resume ln) s) ln.src { code := 18, detail := [.word "STOP"] })) ∧
  (∀ (p : Port) (s : State), s.TakesIn p → s.unit.kill = true → exec (.kill p) s = .next { s with chain :=
    if p = s.chain.upPort then (s.sendDn (.char 0x104)).chain
    else { s.chain with upWire := s.chain.upWire ++ [.char 0x104], upBusy := s.chain.upBusy + s.clocks.charTime } })

/-! ### Musters, records and the owner (chapters 7 and 15) -/

/-- Musters (R195, R196): when chain time reaches T, or a step has taken it past T (log 57), its sample latches and the reply its line waited for
leaves, with no held reply before it; a sample is kept until chain time has passed T + 60 s. MUSTER (R194, R196): one to be sampled 1 ms to 10 s
ahead takes a slot, a free one or else that of the oldest latched sample, and answers nothing yet; with 4 samples pending it is refused with ERR
17, its detail word MUSTER the model's choice (log 14); RECALL of a sample that is kept answers it again. -/
def Obligations.MustersAreSampled : Prop :=
  ((∀ (m : MusterSlot) (s : State), s.live = true → s.manil.musters = [m] → m.sample = none → s.reached m.t = true →
    s.manil.held = [.muster m.t none] → s.chain.released = false →
    Answers (exec .musterSample s) fun t =>
      t.manil.musters = [{ m with sample := some (s.musterBody m) }] ∧ t.manil.held = [] ∧
      t.chain.upQ = s.chain.upQ ++ [.reply (s.musterBody m) false] ∧
      t = { s with chain := { s.chain with upQ := t.chain.upQ }, manil := { s.manil with musters := t.manil.musters, held := [] } }) ∧
  (∀ s : State, Answers (exec .musterExpiry s) fun t =>
    (∀ m, m ∈ t.manil.musters ↔ m ∈ s.manil.musters ∧ ¬(m.sample.isSome = true ∧ s.reached (after m.t 60000001) = true)) ∧
    t = { s with manil := { s.manil with musters := t.manil.musters } })) ∧
  ((∀ (adr : AddrForm) (t : ChainTime) (paths : List RegAddr) (s : State), s.Hears { src := .chain, addr := adr } →
    s.Lets { src := .chain, addr := adr } .write .always → paths.length ≤ 4 → (∀ a ∈ paths, (pathInfo a.toNat).isSome = true) →
    s.clocks.mode ≠ .unset → 1000 ≤ (t - s.time).toNat → (t - s.time).toNat ≤ 10000000 → s.manil.musters.length < 4 →
    (∀ m ∈ s.manil.musters, m.t ≠ t) →
    exec (.muster { src := .chain, addr := adr } { val := t.toNat } (paths.map .reg)) s =
      .next { s with manil := { s.manil with
        musters := s.manil.musters ++ [{ t := t, paths := paths, sample := none }], held := [.muster t none] } }) ∧
  (∀ (adr : AddrForm) (t : ChainTime) (paths : List RegAddr) (s : State), s.Hears { src := .chain, addr := adr } →
    s.Lets { src := .chain, addr := adr } .write .always → paths.length ≤ 4 → (∀ a ∈ paths, (pathInfo a.toNat).isSome = true) →
    s.clocks.mode ≠ .unset → 1000 ≤ (t - s.time).toNat → (t - s.time).toNat ≤ 10000000 → s.manil.musters.length = 4 →
    (∀ m ∈ s.manil.musters, m.t ≠ t) →
    (∀ m, s.manil.musters.find? (fun x => x.sample.isSome) = some m →
      exec (.muster { src := .chain, addr := adr } { val := t.toNat } (paths.map .reg)) s =
        .next { s with manil := { s.manil with
          musters := s.manil.musters.erase m ++ [{ t := t, paths := paths, sample := none }], held := [.muster t none] } }) ∧
    (s.manil.musters.find? (fun x => x.sample.isSome) = none →
      Refuses s (exec (.muster { src := .chain, addr := adr } { val := t.toNat } (paths.map .reg)) s) .chain
        { code := 17, detail := [.word "MUSTER"] })) ∧
  (∀ (adr : AddrForm) (m : MusterSlot) (text : List Tok) (s : State), s.Hears { src := .chain, addr := adr } →
    s.Lets { src := .chain, addr := adr } .write .always → s.manil.musters.find? (fun x => decide (x.t = m.t) && !s.musterOver x) = some m →
    m.sample = some (.ok text) →
    exec (.musterRecall { src := .chain, addr := adr } { val := m.t.toNat }) s = .next (s.reply .chain (.ok text) false)))

/-- The recorder in time (R376, R377, R380): the oldest record of the queue is committed, of which the newest 4096 stay, at once and within a handover
too (log 60); the drops since the last are recorded once the queue has room; the operating time steps every 56.25 s and stays at its top; a rate
window of 60 s of CD08 ends with all counts 0. CLEAR LOG (R390): an authorised source empties the log but for one LOG CLEARED record that names it
and the number cleared, and sets the log's event. -/
def Obligations.TheRecorderKeepsTime : Prop :=
  ((∀ s : State, s.recorder.queue = [] → exec .recordCommit s = .next { s with recorder := { s.recorder with repeatDue := false } }) ∧
  (∀ (x : Record) (rest : List Record) (s : State), s.recorder.queue = x :: rest →
    Answers (exec .recordCommit s) fun t =>
      t.recorder.queue = rest ∧ t.recorder.nvm = (s.recorder.nvm ++ [x]).drop (s.recorder.nvm.length + 1 - 4096) ∧
      t.recorder.nvmNext = x.seq + 1 ∧
      t = { s with recorder := { s.recorder with queue := t.recorder.queue, nvm := t.recorder.nvm, nvmNext := t.recorder.nvmNext } }) ∧
  (∀ s : State, s.recorder.lost ≠ 0 → s.recorder.queue.length < 32 →
    Answers (exec .recordsLost s) fun t =>
      t.recorder = (({ s with recorder := { s.recorder with lost := 0 } } : State).record 0x2C6 63 (BitVec.ofNat 24 s.recorder.lost)).recorder ∧
      t.recorder.lost = 0 ∧
      t = { s with recorder := t.recorder, chain := t.chain, manil := { s.manil with conTx := t.manil.conTx } }) ∧
  (∀ s : State, 56250000 ≤ s.recorder.optUs →
    Answers (exec .optimeStep s) fun t =>
      t.recorder.optUs = s.recorder.optUs - 56250000 ∧
      t.recorder.optime = (if s.recorder.optime = 0xFFFFFF then 0xFFFFFF else s.recorder.optime + 1) ∧
      (s.recorder.optime = 0xFFFFFE → t.recorder.evt.getLsbD 2 = true ∧ t.recorder.optSat = true) ∧ t = { s with recorder := t.recorder }) ∧
  (∀ (w : Nat) (s : State), s.recorder.window = some w → cd08Cycle (w + 60000000) ≤ cd08Cycle s.cdUs →
    Answers (exec .rateWindowEnd s) fun t =>
      t.recorder.rates = [] ∧ t.recorder.window = some (w + 60000000) ∧ t = { s with recorder := t.recorder })) ∧
  (∀ (ln : LineHdr) (s : State), s.Hears ln → s.Lets ln .write .moorOrSafe → s.authorised ln.src = true →
    Replies (exec (.clearLog ln) s) ln.src [] fun u =>
      (∃ x, u.recorder.nvm = [x] ∧ x.code = 0x2C1 ∧ x.seq = s.recorder.next ∧ x.data = BitVec.ofNat 24 s.recorder.held.length) ∧
      u.recorder.queue = [] ∧ u.recorder.evt.getLsbD 4 = true ∧ u.recorder.next = s.recorder.next + 1 ∧
      u = { s with recorder := u.recorder, chain := u.chain, manil := { s.manil with conTx := u.manil.conTx } })

/-- What authorisations and the calendar end (R386, R388, R389, R395): a nonce, a grant and a lockout are gone at their time; at the end of 2399 END
is set and told, and the calendar holds its last second. -/
def Obligations.GrantsAndTheCalendarEnd : Prop :=
  (∀ (src : Source) (n : ChainTime) (due : Nat) (s : State), (s.owner.of src).nonce = some (n, due) → due ≤ s.clk →
    Answers (exec (.nonceExpiry src) s) fun t =>
      t.owner.of src = { s.owner.of src with nonce := none } ∧ (∀ o, o ≠ src → t.owner.of o = s.owner.of o) ∧
      t.owner.key = s.owner.key ∧ t = { s with owner := t.owner }) ∧
  (∀ (src : Source) (due : Nat) (s : State), (s.owner.of src).grant = some due → due ≤ s.clk →
    Answers (exec (.authExpiry src) s) fun t =>
      t.owner.of src = { s.owner.of src with grant := none } ∧ (∀ o, o ≠ src → t.owner.of o = s.owner.of o) ∧
      t.owner.key = s.owner.key ∧ t = { s with owner := t.owner }) ∧
  (∀ (src : Source) (due : Nat) (s : State), (s.owner.of src).lockout = some due → due ≤ s.clk → s.phase = .running →
    Answers (exec (.lockoutEnd src) s) fun t =>
      t.owner.of src = { s.owner.of src with lockout := none } ∧ (∀ o, o ≠ src → t.owner.of o = s.owner.of o) ∧
      t.owner.key = s.owner.key ∧ t = { s with owner := t.owner }) ∧
  (∀ s : State, s.coreUp = true → s.cal.days.toNat = 146096 → s.cal.secs.toNat = 86399 → 1000000 ≤ s.cal.sub → s.cal.ended = false →
    Answers (exec .calEnd s) fun t =>
      t.cal = { s.cal with ended := true } ∧ (∀ step, (t.cal.tick step).secs = s.cal.secs ∧ (t.cal.tick step).days = s.cal.days) ∧
      t = { s with cal := t.cal, recorder := t.recorder, chain := t.chain, manil := { s.manil with conTx := t.manil.conTx } })

/-- AUTH (R386 to R389): a challenge ends the authorisation held and gives a nonce for 30 s; the right response authorises its source for OWN.TTL
seconds and clears its failures; a wrong one is counted and answered ERR 15, and the third in a row locks the source out for 60 s. -/
def Obligations.AuthorisationByChallenge : Prop :=
  (∀ (ln : LineHdr) (key : Vector Word 6) (s : State), s.Hears ln → s.Lets ln .write .always → (s.owner.of ln.src).lockout = none →
    s.owner.key = some key →
    Replies (exec (.auth ln) s) ln.src [.word "AUTH", .num (Config.nonce s.owner.nonces).toNat] fun u =>
      (u.owner.of ln.src).nonce = some (Config.nonce s.owner.nonces, s.clk + 30000000) ∧ (u.owner.of ln.src).grant = none ∧
      u.owner.key = s.owner.key ∧ u = { s with owner := u.owner }) ∧
  (∀ (ln : LineHdr) (key : Vector Word 6) (n : ChainTime) (due : Nat) (s : State), s.Hears ln → s.Lets ln .write .always →
    (s.owner.of ln.src).lockout = none → s.owner.key = some key → (s.owner.of ln.src).nonce = some (n, due) → s.clk < due →
    Replies (exec (.authResponse ln (responseTo key n s.chain.serial)) s) ln.src [.word "AUTH", .word "GRANTED"] fun u =>
      (u.owner.of ln.src).grant = some (s.clk + 1000000 * s.regN Reg.ownTtl) ∧ (u.owner.of ln.src).fails = 0 ∧
      (u.owner.of ln.src).nonce = none ∧ u.owner.key = s.owner.key ∧ u = { s with owner := u.owner }) ∧
  (∀ (ln : LineHdr) (key : Vector Word 6) (response : List Byte) (s : State), s.Hears ln → s.Lets ln .write .always →
    (s.owner.of ln.src).lockout = none → s.owner.key = some key → response.length = 6 → s.responseHolds ln.src response = false →
    ∃ u : State, exec (.authResponse ln response) s = .next (u.reply ln.src (.err { code := 15 }) false) ∧
      (u.owner.of ln.src).nonce = none ∧ (u.owner.of ln.src).grant = (s.owner.of ln.src).grant ∧
      ((s.owner.of ln.src).fails < 2 → (u.owner.of ln.src).fails = (s.owner.of ln.src).fails + 1 ∧ (u.owner.of ln.src).lockout = none) ∧
      (2 ≤ (s.owner.of ln.src).fails → (u.owner.of ln.src).fails = 0 ∧ (u.owner.of ln.src).lockout = some (s.clk + 60000000)) ∧
      u.recorder.eAuth = satInc s.recorder.eAuth ∧
      u = { s with owner := u.owner, recorder := u.recorder, chain := u.chain, manil := { s.manil with conTx := u.manil.conTx } })

/-! ### Lines (chapter 7) -/

/-- A frame at a port (R136, R139): one whole line that is no sweep and is addressed to another unit is forwarded and nothing else; one of more than
120 characters, and every broken one, is also a FRAME error; what a standby helm sends is not forwarded at all (R159). A console character (R168,
R199): one that is no terminator and no erasure joins the line in assembly, with its echo where MNL.CFG.ECHO is 1; a framing error or an overrun
counts in MNL.E_CON, and its character is not stored (log 63). Lines for this unit (R168 to R171, R181, R199): a whole line of a sound text that
designates the unit and is no sweep joins the queue of its source as its verb's command, or, behind 8 waiting lines of the chain or 2 of the
console, as a refusal with ERR 16 BUSY, its detail word QUEUE, queued in the line's place, the model's choice (log 11); on the console CR or LF
completes the line in assembly. A verb without arguments, in whatever letter case, is that verb's command. A sweep is outstanding from then on,
whomever it designates, and at the end of the chain, which owes its TURN in 20 ms, the line that joins the queue brings it after its reply (R153). -/
def Obligations.LinesArriveCharacterByCharacter : Prop :=
  ((∀ (text : List Byte) (s : State), s.TakesIn s.chain.upPort → s.farHelmAt s.chain.upPort = false → 120 < text.length →
    exec (.lineFrame s.chain.upPort (.line text)) s =
      .next ((s.sendDn (.frame 0x01 text)).frameError s.chain.upPort)) ∧
  (∀ (p : Port) (text : List Byte) (s : State), s.TakesIn p → s.farHelmAt p = false → text.length ≤ 120 →
    exec (.lineFrame p (.notice text)) s = .next (s.forward p (.frame 0x0B text))) ∧
  (∀ (p : Port) (text : List Byte) (s : State), s.TakesIn p → s.farHelmAt p = false →
    exec (.lineFrame p (.cutLine text)) s = .next ((s.forward p (.cut 0x01 text)).frameError p)) ∧
  (∀ (p : Port) (fr : FrameArrival) (s : State), s.TakesIn p → s.farHelmAt p = true →
    exec (.lineFrame p fr) s = .next (s.frameError p)) ∧
  (∀ (text : List Byte) (x : AddrForm) (s : State), s.TakesIn s.chain.upPort → s.farHelmAt s.chain.upPort = false →
    text ≠ [] → text.length ≤ 120 → isSweep (charsOf text) = false → isIgnored (charsOf text) ((charsOf text).any badChar) = false →
    (takeApart (charsOf text)).sumHolds = true → (takeApart (charsOf text)).sum.isSome = true →
    (takeApart (charsOf text)).words.head?.bind readAddr = some x → s.verdict { src := .chain, addr := x } = .other →
    exec (.lineFrame s.chain.upPort (.line text)) s = .next (s.sendDn (.frame 0x01 text)))) ∧
  ((∀ (c : Byte) (s : State), s.phase = .running → s.domainOn 106 = true → c ≠ 8 → c ≠ 9 → c ≠ 10 → c ≠ 13 → c ≠ 127 →
    exec (.consoleCharacter { ch := c }) s = .next { s with manil := { s.manil with
      conLastCr := false, conLine := s.manil.conLine ++ [c]
      conTx := if bit (s.reg Reg.mnlCfg) 2 then s.manil.conTx ++ [c] else s.manil.conTx } }) ∧
  (∀ (x : ConsoleChar) (s : State), s.phase = .running → s.domainOn 106 = true → (x.framingError = true ∨ x.overrun = true) →
    exec (.consoleCharacter x) s = .next { s with manil := { s.manil with
      conBad := true, conLastCr := false, eCon := satInc s.manil.eCon } }) ∧
  (∀ s : State, s.phase = .running → s.domainOn 106 = true → s.manil.conLastCr = true →
    exec (.consoleCharacter { ch := 10 }) s = .next { s with manil := { s.manil with conLastCr := false } })) ∧
  ((∀ (src : Source) (a : AddrForm) (w verb : Chars) (t : LineText), t.words = [w, verb] → t.sumHolds = true → t.spaced = true →
    t.comment = false →
    ∀ v ∈ ([("STATE", .state), ("ID", .id), ("ARM", .arm), ("MOOR", .moor), ("GO", .go), ("HALT", .halt), ("RESUME", .resume), ("KILL", .killLine),
        ("COMMIT", .commit), ("ABORT", .abort), ("SAVE", .save), ("HELM", .helm), ("ENUM", .enum), ("ANCHOR", .anchor)] : List (String × (LineHdr → Instr))),
      upper verb = v.1.toList → lineOf src (some a) t false false = some (.inl (v.2 { src := src, addr := a }))) ∧
  (∀ (text : List Byte) (x : AddrForm) (i : Instr) (s : State), s.TakesIn s.chain.upPort → s.farHelmAt s.chain.upPort = false →
    text ≠ [] → text.length ≤ 120 → isSweep (charsOf text) = false → isIgnored (charsOf text) ((charsOf text).any badChar) = false →
    (takeApart (charsOf text)).words.head?.bind readAddr = some x → s.verdict { src := .chain, addr := x } = .mine →
    lineOf .chain (some x) (takeApart (charsOf text)) false ((charsOf text).any badChar) = some (.inl i) →
    (∀ q ∈ s.manil.chainQ, q.what.isLeft = true) → s.phase = .running →
    exec (.lineFrame s.chain.upPort (.line text)) s = .next { s.sendDn (.frame 0x01 text) with manil := { s.manil with
      chainQ := s.manil.chainQ ++ [{
        what := if linesIn s.manil.chainQ < 8 then .inl i else .inr { code := 16, detail := [.word "QUEUE"] }
        doneAt := s.clk, tides := s.manil.tideCount, bare := (takeApart (charsOf text)).sum.isNone, turn := none }] } }) ∧
  (∀ (text : List Byte) (x : AddrForm) (i : Instr) (s : State), s.TakesIn s.chain.upPort → s.farHelmAt s.chain.upPort = false →
    text ≠ [] → text.length ≤ 120 → isSweep (charsOf text) = true → isIgnored (charsOf text) ((charsOf text).any badChar) = false →
    (takeApart (charsOf text)).words.head?.bind readAddr = some x →
    lineOf .chain (some x) (takeApart (charsOf text)) false ((charsOf text).any badChar) = some (.inl i) →
    (∀ q ∈ s.manil.chainQ, q.what.isLeft = true) → (takeApart (charsOf text)).sumHolds = true → s.phase = .running →
    let ends := !s.chain.dnLink || s.chain.farHelm
    let sweep : Sweep := { crc := crc8 text, seq := s.chain.sweepSeq + 1 }
    let swept : Chain := { (s.sendDn (.frame 0x01 text)).chain with
      sweepSeq := sweep.seq, outstanding := s.chain.outstanding ++ [{ sweep with own := ends }]
      turnsDue := if ends then s.chain.turnsDue ++ [{ crc := sweep.crc, seq := sweep.seq, due := s.clk + 20000 }] else s.chain.turnsDue }
    (s.verdict { src := .chain, addr := x } = .mine →
      exec (.lineFrame s.chain.upPort (.line text)) s = .next { s with chain := swept, manil := { s.manil with
        chainQ := s.manil.chainQ ++ [{
          what := if linesIn s.manil.chainQ < 8 then .inl i else .inr { code := 16, detail := [.word "QUEUE"] }
          doneAt := s.clk, tides := s.manil.tideCount, bare := (takeApart (charsOf text)).sum.isNone
          turn := if ends then some sweep else none }] } }) ∧
    (s.verdict { src := .chain, addr := x } = .other → exec (.lineFrame s.chain.upPort (.line text)) s = .next { s with chain := swept, manil := { s.manil with
      eCheck := if (takeApart (charsOf text)).sum = none ∧ bit (s.reg Reg.mnlCfg) 0 = true then satInc s.manil.eCheck else s.manil.eCheck } })) ∧
  (∀ (c : Byte) (x : AddrForm) (i : Instr) (s : State), s.phase = .running → s.domainOn 106 = true →
    (c = 13 ∨ c = 10 ∧ s.manil.conLastCr = false) → s.manil.conBad = false → s.manil.conLine.length ≤ 120 →
    isIgnored (charsOf s.manil.conLine) ((charsOf s.manil.conLine).any badChar) = false →
    (takeApart (charsOf s.manil.conLine)).words.head?.bind readAddr = some x → s.verdict { src := .console, addr := x } = .mine →
    lineOf .console (some x) (takeApart (charsOf s.manil.conLine)) false ((charsOf s.manil.conLine).any badChar) = some (.inl i) →
    (∀ q ∈ s.manil.conQ, q.what.isLeft = true) →
    exec (.consoleCharacter { ch := c }) s = .next { s with manil := { s.manil with
      conLine := [], conLastCr := decide (c = 13)
      conTx := if bit (s.reg Reg.mnlCfg) 2 = true then s.manil.conTx ++ [13, 10] else s.manil.conTx
      conQ := s.manil.conQ ++ [{
        what := if linesIn s.manil.conQ < 2 then .inl i else .inr { code := 16, detail := [.word "QUEUE"] }
        doneAt := s.clk, tides := s.manil.tideCount, bare := false, turn := none }] } }))

/-- The lines that tell what the unit is and do nothing else: each is answered with its text; `?` with the first verbs of Table 7.7 that a reply holds
(log 15). The words of HELM, ENUM, ID and IMAGE are log 16, those of TIME log 62. GET (R11, R14, R57): up to four paths are read in the order
given, each after the snapshots that those before it took; of one path the reply names the path and gives its value as the source reads it; only
the snapshot that a low word takes changes. A path that cannot be read is answered ERR 21 GONE. -/
def Obligations.ReadingLinesReply : Prop :=
  ((∀ (ln : LineHdr) (s : State), s.Hears ln → s.Lets ln .read .alwaysReads →
    exec (.id ln) s = .next (s.reply ln.src (.ok ([.word "ID", .word "OCV3208", .word (steppingText s.rst.stepping), .serial s.chain.serial] ++
      s.boot.versionToks)) false) ∧
    exec (.state ln) s = .next (s.reply ln.src (.ok (.word s.judged.word :: wordsOf
      [(s.unit.kill, "KILL"), (s.stopFlag, "STOP"), (s.anyStale, "STALE"), (s.boot.untested, "UNTESTED"),
       (decide (s.clocks.mode = .holdover), "HOLDOVER")])) false) ∧
    exec (.log ln none none) s = .next (s.reply ln.src (.ok [.word "LOG", .num s.recorder.oldest.toNat, .num s.recorder.newest.toNat,
      .num s.recorder.held.length, .num s.recorder.optime.toNat, .num s.recorder.pcycle.toNat]) false)) ∧
  (∀ (ln : LineHdr) (n : Word) (x : Record) (s : State), s.Hears ln → s.Lets ln .read .alwaysReads → s.recorder.recordOf n = some x →
    exec (.log ln (some { val := n.toNat }) none) s = .next (s.reply ln.src (.ok (.word "LOG" :: x.toks)) false) ∧
    exec (.log ln (some { val := n.toNat }) (some { val := 1 })) s = .next (s.reply ln.src (.ok (.word "LOG" :: x.toks)) false) ∧
    (s.chain.addr ≠ 0 → exec (.log ln (some { val := n.toNat }) (some { val := 2 })) s = .next (s.reply ln.src
      (.ok (.word "LOG" :: (x.toks ++ ((s.recorder.recordOf (n + 1)).map Record.toks).getD []))) false))) ∧
  (∀ (ln : LineHdr) (s : State), s.Hears ln → s.Lets ln .read .always →
    exec (.time ln) s = .next (s.reply ln.src (.ok s.timeToks) false) ∧
    exec (.imageList ln) s = .next (s.reply ln.src (.ok s.boot.listToks) false) ∧
    exec (.helm ln) s = .next (s.reply ln.src (.ok [.word "HELM", .word s.chain.upPort.word, .num (b2n s.chain.farHelm),
      .word (match s.chain.helmReq with
        | some r => r.target.word
        | none => "NONE")]) false) ∧
    exec (.enum ln) s = .next (s.reply ln.src (.ok [.word "ENUM", .num s.chain.addr.toNat, .num (s.regN Reg.chnPin), .num (s.readChn 5).toNat,
      .num (s.readClk 4).toNat, .num (s.readClk 5).toNat]) false)) ∧
  (∀ (ln : LineHdr) (s : State), s.Hears ln → s.Lets ln .read .notDock →
    exec (.queryList ln) s = .next (s.reply ln.src (.ok (.word "?" :: (fitWords s.chain.listRoom verbs).map .word)) false) ∧
    (∀ v ∈ verbs, exec (.queryVerb ln v) s = .next (s.reply ln.src (.ok (.word "?" :: formToks v)) false)) ∧
    (∀ a : RegAddr, (pathInfo a.toNat).isSome = true →
      exec (.queryPath ln (.reg a)) s = .next (s.reply ln.src (.ok (.word "?" :: s.describe a.toNat)) false)))) ∧
  ((∀ (ln : LineHdr) (a : RegAddr) (s : State), s.Hears ln → s.Lets ln .read .alwaysReads → (pathInfo a.toNat).isSome = true →
    s.pathGone a.toNat = false →
    exec (.get ln [.reg a]) s = .next ((s.getPath ln.src a.toNat).2.reply ln.src
      (.ok [.word (pathName a.toNat), .num (shownValue a.toNat (s.getPath ln.src a.toNat).1)]) false)) ∧
  (∀ (ln : LineHdr) (paths : List RegAddr) (s : State), s.Hears ln → s.Lets ln .read .alwaysReads → 1 ≤ paths.length → paths.length ≤ 4 →
    (∀ a ∈ paths, (pathInfo a.toNat).isSome = true ∧ s.pathGone a.toNat = false) →
    exec (.get ln (paths.map .reg)) s =
      .next ((s.getAll ln.src (paths.map (·.toNat))).1.reply ln.src (.ok (s.getAll ln.src (paths.map (·.toNat))).2) false)) ∧
  (∀ (ln : LineHdr) (a : RegAddr) (s : State), s.Hears ln → s.Lets ln .read .alwaysReads → (pathInfo a.toNat).isSome = true →
    s.pathGone a.toNat = true →
    Refuses s (exec (.get ln [.reg a]) s) ln.src { code := 21, detail := [.word (pathName a.toNat)] }) ∧
  (∀ (ln : LineHdr) (n : String) (s : State), s.Hears ln → s.Lets ln .read .alwaysReads →
    Refuses s (exec (.get ln [.unknown n]) s) ln.src { code := 11, detail := [.word n] }))

/-- SET and its kinds (R10, R167, R185, R254, R309, R319, R331, R385): a SET that is not refused stages a value for an ST path, or takes effect at
once on an RW, WO or W1C path; then it replies OK. Here for pairs that are staged, where every pending tide came before the line, and for one pair
of the other kinds: one of a W1C path clears exactly the flags whose bits are 1 (R12), one of an ECLR path exactly the counters. A SET of an RO or
LV path is refused with ERR 12 ACCESS, and one that would stage more than 256 writes with ERR 17 STAGED (R186). The sixth part of the owner key
(R385): the key is whole, the parts are gone, and every authorisation held ends. -/
def Obligations.SetsStageOrAct : Prop :=
  ((∀ (ln : LineHdr) (pairs : List (RegAddr × LineNum)) (s : State), s.Hears ln →
    s.setErr ln (pairs.map fun x => (.reg x.1, x.2)) s.manil.tideCount = none → (∀ t ∈ s.manil.tides, t.seq < s.manil.tideCount) →
    (∀ x ∈ pairs, isStaged x.1.toNat = true) →
    Replies (exec (.set ln (pairs.map fun x => (.reg x.1, x.2))) s) ln.src [] fun u =>
      (∀ a : RegAddr, writeOf u.manil.staged a.toNat =
        ((pairs.reverse.find? fun x => decide (x.1 = a)).map fun x => BitVec.ofInt 24 x.2.val).or (writeOf s.manil.staged a.toNat)) ∧
      u = { s with manil := { s.manil with staged := u.manil.staged } }) ∧
  (∀ (ln : LineHdr) (v : LineNum) (s : State), s.Hears ln → s.setErr ln [(regArg Reg.pwmDis, v)] s.manil.tideCount = none → s.Calm →
    Replies (exec (.pwmDisWrite ln v) s) ln.src [] fun u =>
      u.pwm.dis = BitVec.ofInt 12 v.val ∧ Steady s u) ∧
  (∀ (ln : LineHdr) (k : Fin 12) (v : LineNum) (s : State), s.Hears ln → 8 ≤ k.val →
    s.setErr ln [(regArg (Reg.pwmDuty k), v)] s.manil.tideCount = none →
    Replies (exec (.pwmDutyWrite ln k v) s) ln.src [] fun u =>
      u = { s with pwm := { s.pwm with slices := upd s.pwm.slices k fun w => { w with shadow := BitVec.ofInt 24 v.val } } }) ∧
  (∀ (ln : LineHdr) (w : Fin 8) (v : LineNum) (s : State), s.Hears ln → s.setErr ln [(regArg (Reg.mvPtgt w), v)] s.manil.tideCount = none →
    Replies (exec (.ptgtWrite ln w v) s) ln.src [] fun u =>
      (u.pwm.valves[w]).ptgt = (BitVec.ofInt 24 v.val).toNat ∧ (∀ x, x ≠ w → u.pwm.valves[x] = s.pwm.valves[x]) ∧ Steady s u) ∧
  (∀ (ln : LineHdr) (v : LineNum) (s : State), s.Hears ln → s.setErr ln [(regArg Reg.vsel, v)] s.manil.tideCount = none →
    Replies (exec (.vselWrite ln v) s) ln.src [] fun u =>
      (ln.src = .chain → u = { s with engine := { s.engine with vselChain := BitVec.ofInt 24 v.val } }) ∧
      (ln.src = .console → u = { s with engine := { s.engine with vselConsole := BitVec.ofInt 24 v.val } })) ∧
  (∀ (ln : LineHdr) (k : Fin 6) (v : LineNum) (s : State), s.Hears ln →
    s.setErr ln [(regArg (0x1B10 + k.val), v)] s.manil.tideCount = none → (∃ j : Fin 6, j ≠ k ∧ s.owner.partialKey[j] = none) →
    Replies (exec (.ownerKeyWrite ln k v) s) ln.src [] fun u =>
      u = { s with owner := { s.owner with partialKey := s.owner.partialKey.set k.val (some (BitVec.ofInt 24 v.val)) k.isLt } }) ∧
  (∀ (ln : LineHdr) (v : LineNum) (s : State), s.Hears ln → s.setErr ln [(regArg 0x071F, v)] s.manil.tideCount = none →
    Replies (exec (.counterClear ln (regArg 0x071F) v) s) ln.src [] fun u =>
      let w : Word := BitVec.ofInt 24 v.val
      u.manil.eCheck = (if w.getLsbD 0 then 0 else s.manil.eCheck) ∧ u.manil.eSyntax = (if w.getLsbD 1 then 0 else s.manil.eSyntax) ∧
      u.manil.eAddr = (if w.getLsbD 2 then 0 else s.manil.eAddr) ∧ u.manil.eCon = (if w.getLsbD 3 then 0 else s.manil.eCon) ∧
      u = { s with manil := { s.manil with
        eCheck := u.manil.eCheck, eSyntax := u.manil.eSyntax, eAddr := u.manil.eAddr, eCon := u.manil.eCon } }) ∧
  (∀ (ln : LineHdr) (a : RegAddr) (v : LineNum) (s : State), s.Hears ln → s.setErr ln [(.reg a, v)] s.manil.tideCount = none →
    let w : Word := BitVec.ofInt 24 v.val
    let cut (k : Nat) (n : Word) : Word := if w.getLsbD k then 0 else n
    let counted (p : PortState) (k : Nat) : PortState :=
      { p with eChar := cut k p.eChar, eCrc := cut (k + 1) p.eCrc, eAlign := cut (k + 2) p.eAlign, eFrame := cut (k + 3) p.eFrame
               eCkLoss := cut (k + 4) p.eCkLoss, eLink := cut (k + 5) p.eLink }
    Replies (exec (.counterClear ln (.reg a) v) s) ln.src [] fun u =>
      (a = 0x061F → u = { s with chain := { s.chain with
        bow := counted s.chain.bow 0, stern := counted s.chain.stern 6, eNlost := cut 12 s.chain.eNlost } }) ∧
      (a = 0x0A22 → (∀ p : Fin 4, u.motion.encs[p] = { s.motion.encs[p] with err := cut p.val (s.motion.encs[p]).err }) ∧
        u = { s with motion := { s.motion with encs := u.motion.encs } }) ∧
      (a = 0x0C1F → u = { s with engine := { s.engine with
        eMiss := cut 0 s.engine.eMiss, eLate := cut 1 s.engine.eLate, eRcast := cut 2 s.engine.eRcast } }) ∧
      (a = 0x1923 → (∀ p : Fin 4, u.safety.pairs[p] = { s.safety.pairs[p] with trips := cut p.val (s.safety.pairs[p]).trips }) ∧
        u = { s with safety := { s.safety with pairs := u.safety.pairs } }) ∧
      (a = 0x1A1F → u = { s with recorder := { s.recorder with eLost := cut 0 s.recorder.eLost, eAuth := cut 1 s.recorder.eAuth } })) ∧
  (∀ (ln : LineHdr) (a : RegAddr) (p : PathInfo) (v : LineNum) (s : State), s.Hears ln → pathInfo a.toNat = some p → p.access = .w1c →
    s.setErr ln [(.reg a, v)] s.manil.tideCount = none →
    Replies (exec (.set ln [(.reg a, v)]) s) ln.src [] fun u =>
      u = s.clearFlags a.toNat (BitVec.ofInt 24 v.val) ∧
      ∀ src, u.readPath src a.toNat = s.readPath src a.toNat &&& ~~~(BitVec.ofInt 24 v.val)) ∧
  (∀ (ln : LineHdr) (a : RegAddr) (p : PathInfo) (n : Int) (s : State), s.Hears ln → s.Lets ln .write .settings →
    pathInfo a.toNat = some p → p.access = .ro ∨ p.access = .lv →
    Refuses s (exec (.set ln [(.reg a, { val := n })]) s) ln.src { code := 12, detail := [.word "ACCESS"] }) ∧
  (∀ (ln : LineHdr) (a : RegAddr) (n : Int) (s : State), s.Hears ln → s.Lets ln .write .settings → isStaged a.toNat = true →
    (mooredOnly a.toNat = true → s.judged = .moored) → (s.needsAuth a.toNat n = true → s.authorised ln.src = true) →
    s.pairRange (s.merged [(a, wordOf n)]) a.toNat n = none → s.pairBusy (s.merged [(a, wordOf n)]) a.toNat (wordOf n) = none →
    (∀ t ∈ s.manil.tides, t.seq < s.manil.tideCount) → (∀ w ∈ s.manil.staged, w.1 ≠ a) →
    256 ≤ s.manil.staged.length + (s.manil.tides.map fun t => t.writes.length).sum →
    Refuses s (exec (.set ln [(.reg a, { val := n })]) s) ln.src { code := 17, detail := [.word "STAGED"] })) ∧
  (∀ (ln : LineHdr) (k : Fin 6) (v : LineNum) (s : State), s.Hears ln → s.setErr ln [(regArg (0x1B10 + k.val), v)] s.manil.tideCount = none →
    (∀ j : Fin 6, j ≠ k → (s.owner.partialKey[j]).isSome = true) →
    Replies (exec (.ownerKeyWrite ln k v) s) ln.src [] fun u =>
      (∃ key, u.owner.key = some key ∧ key[k] = BitVec.ofInt 24 v.val ∧ ∀ j : Fin 6, j ≠ k → s.owner.partialKey[j] = some key[j]) ∧
      u.owner.chain.grant = none ∧ u.owner.console.grant = none ∧ (∀ j : Fin 6, u.owner.partialKey[j] = none) ∧
      u = { s with owner := u.owner, recorder := u.recorder })

/-- TUNE, COMMIT and SAVE (R187, R189, R190): TUNE gives an LV path its value at once; COMMIT applies every staged write in one step, with EN and the
domain of a pair that has a function (R368), and leaves pending tides nothing to apply; SAVE writes the configuration in force to NVM. SAVE REACH
(R89): an authorised source in MOORED fuses RST.REACH_NEW once; the table in force stays until the next reset. A second one is refused. -/
def Obligations.SettingsComeIntoForce : Prop :=
  ((∀ (ln : LineHdr) (a : RegAddr) (p : PathInfo) (n : Int) (s : State), s.Hears ln → s.Lets ln .write .notDock →
    RegFile.wf s.regs = true → pathInfo a.toNat = some p → p.access = .lv → p.admits n = true →
    Replies (exec (.tune ln (.reg a) { val := n }) s) ln.src [] fun u =>
      u.reg a.toNat = BitVec.ofInt 24 n ∧ (∀ b, b ≠ a.toNat → u.reg b = s.reg b) ∧ u = { s with regs := u.regs }) ∧
  (∀ (ln : LineHdr) (s : State), s.Hears ln → s.Lets ln .write .settings → RegFile.wf s.regs = true →
    Replies (exec (.commit ln) s) ln.src [] fun u =>
      u.manil.staged = [] ∧ (∀ t ∈ u.manil.tides, t.writes = []) ∧ u.manil.tides.length = s.manil.tides.length ∧ u.time = s.time ∧
      let new (a : Nat) : Word := ((s.manil.allStaged.reverse.find? fun w => decide (w.1.toNat = a)).map (·.2)).getD (s.reg a)
      (∀ a, (∀ p : Fin 4, a ≠ Reg.sfpCfg p) → a ≠ Reg.pwrEn 3 → u.reg a = new a) ∧
      (∀ p : Fin 4, u.reg (Reg.sfpCfg p) = (if fld (new (Reg.sfpCfg p)) 1 2 = 0 then new (Reg.sfpCfg p) else raise (new (Reg.sfpCfg p)) 0)) ∧
      (∀ p : Fin 4, bit (u.reg (Reg.pwrEn 3)) (8 + p.val) =
        (bit (new (Reg.pwrEn 3)) (8 + p.val) || decide (fld (new (Reg.sfpCfg p)) 1 2 ≠ 0))) ∧
      (∀ k : Fin 24, k.val < 8 ∨ 12 ≤ k.val → bit (u.reg (Reg.pwrEn 3)) k.val = bit (new (Reg.pwrEn 3)) k.val)) ∧
  (∀ (ln : LineHdr) (s : State), s.Hears ln → s.Lets ln .write .moored →
    Replies (exec (.save ln) s) ln.src [] fun u =>
      u.nvm.saved = (s.regs.filter fun x => decide (x.1 ≠ Reg.conBaud)).map (fun x => (BitVec.ofNat 16 x.1, x.2)) ∧
      u = { s with nvm := { s.nvm with saved := u.nvm.saved } })) ∧
  ((∀ (ln : LineHdr) (s : State), s.Hears ln → s.Lets ln .write .moored → s.authorised ln.src = true → s.rst.fused = none →
    Replies (exec (.saveReach ln) s) ln.src [] fun u =>
      u.rst.fused = some ((s.reg Reg.reachNew).setWidth 22) ∧ u.rst.table = s.rst.table ∧
      u = { s with rst := { s.rst with fused := u.rst.fused }, recorder := u.recorder }) ∧
  (∀ (ln : LineHdr) (w : BitVec 22) (s : State), s.Hears ln → s.Lets ln .write .moored → s.rst.fused = some w →
    Refuses s (exec (.saveReach ln) s) ln.src { code := 23 }))

/-- ABORT (R188): every staged write is discarded, and pending tides keep their targets with nothing to apply; what is in force stays. -/
def Obligations.AbortDiscardsStagedWrites : Prop :=
  ∀ (ln : LineHdr) (s : State), s.Hears ln → s.Lets ln .write .settings →
    Replies (exec (.abort ln) s) ln.src [] fun u =>
      u.manil.staged = [] ∧ u.manil.tides = s.manil.tides.map (fun t => { t with writes := [] }) ∧
      u = { s with manil := { s.manil with staged := [], tides := u.manil.tides } }

/-- Loading an image (R104, R105, Table 4.8): OPEN erases a slot that is not in use and makes it LOADING; DATA appends 32 bytes at the next offset;
CLOSE makes it VALID or, where a check fails, EMPTY with ERR 20; CANCEL and RETIRE leave it EMPTY; ACCEPT UNTESTED holds the pair for the boot
that follows (R103). A size of 0, and the SOFTWARE reset at Reach 1 by which ACCEPT boots anew, are log 9. -/
def Obligations.ImagesAreLoaded : Prop :=
  (∀ (ln : LineHdr) (k : Slot) (n : Nat) (s : State), s.Hears ln → s.Lets ln .write .imageWrite → s.authorised ln.src = true →
    s.boot.openSlot = none → s.boot.running.contains k = false → n ≤ slotSize k → n % 32 = 0 →
    Replies (exec (.imageOpen ln k { val := n }) s) ln.src [] fun u =>
      u.boot.slot k = { st := .loading, size := n } ∧ u.boot.openSlot = some k ∧ (∀ j, j ≠ k → u.boot.slot j = s.boot.slot j) ∧
      u.boot.fails = s.boot.fails ∧ u = { s with boot := u.boot }) ∧
  (∀ (ln : LineHdr) (k : Slot) (n : Nat) (data : List Byte) (s : State), s.Hears ln → s.Lets ln .write .imageWrite → s.boot.openSlot = some k →
    (s.boot.slot k).data.length = n → n < (s.boot.slot k).size → data.length = 32 →
    Replies (exec (.imageData ln { val := n } data) s) ln.src [] fun u =>
      u.boot.slot k = { s.boot.slot k with data := (s.boot.slot k).data ++ data } ∧ (∀ j, j ≠ k → u.boot.slot j = s.boot.slot j) ∧
      u = { s with boot := { s.boot with slots := u.boot.slots } }) ∧
  (∀ (ln : LineHdr) (k : Slot) (s : State), s.Hears ln → s.Lets ln .write .imageWrite → s.boot.openSlot = some k →
    match (s.boot.slot k).check with
    | some y =>
      Replies (exec (.imageClose ln) s) ln.src [] fun u =>
        u.boot.slot k = y ∧ y.st = .valid ∧ u.boot.openSlot = none ∧ (∀ j, j ≠ k → u.boot.slot j = s.boot.slot j) ∧ u = { s with boot := u.boot }
    | none =>
      exec (.imageClose ln) s = .next (({ s with boot := s.boot.dropLoading } : State).reply ln.src (.err { code := 20 }) false) ∧
      s.boot.dropLoading.slot k = {} ∧ s.boot.dropLoading.openSlot = none) ∧
  (∀ (ln : LineHdr) (k : Slot) (s : State), s.Hears ln → s.Lets ln .write .imageWrite → s.boot.openSlot = some k →
    Replies (exec (.imageCancel ln) s) ln.src [] fun u => u = { s with boot := s.boot.dropLoading }) ∧
  (∀ (ln : LineHdr) (k : Slot) (s : State), s.Hears ln → s.Lets ln .write .imageWrite → s.authorised ln.src = true →
    s.boot.running.contains k = false →
    Replies (exec (.imageRetire ln k) s) ln.src [] fun u =>
      u.boot.slot k = {} ∧ u.boot.openSlot ≠ some k ∧ (∀ j, j ≠ k → u.boot.slot j = s.boot.slot j) ∧ u = { s with boot := u.boot }) ∧
  (∀ (ln : LineHdr) (p l : Slot) (s : State), s.Hears ln → s.Lets ln .write .dockOnly → s.authorised ln.src = true → s.boot.dockReason = 1 →
    s.boot.bestValid = some (p, l) →
    Answers (exec (.imageAcceptUntested ln) s) fun t =>
      t.boot = { s.boot with accepted := some (p, l, (s.boot.slot p).digest, (s.boot.slot l).digest) } ∧
      (∃ x, t.rst.soft = some x ∧ x.reach = 1 ∧ x.unsent = false) ∧ Drives { s with boot := t.boot, rst := t.rst } t)

/-- RESET and ANCHOR (R62, R85, R86, R67): RESET answers first, and its reset waits for that reply with the Reach it asks for, at least that of cause
SOFTWARE; ANCHOR sets the end of PWR.ANCHOR_DLY, counted from its execution, and an ANCHOR that waits already keeps its end (log 26). -/
def Obligations.ResetAndAnchorWait : Prop :=
  (∀ (ln : LineHdr) (n : Nat) (s : State), s.Hears ln → s.Lets ln .write .reset → 1 ≤ n → n ≤ 4 →
    Answers (exec (.reset ln (some { val := n })) s) fun t =>
      (∃ x, t.rst.soft = some x ∧ x.reach = Nat.max n (s.reachOf 7) ∧ x.unsent = false) ∧
      t.phase = s.phase ∧ t.unit = s.unit ∧ t.regs = s.regs ∧ Drives { s with rst := t.rst } t) ∧
  (∀ (ln : LineHdr) (s : State), s.Hears ln → s.Lets ln .write .reset →
    Answers (exec (.reset ln none) s) fun t =>
      (∃ x, t.rst.soft = some x ∧ x.reach = s.reachOf 7 ∧ x.unsent = false) ∧ Drives { s with rst := t.rst } t) ∧
  (∀ (ln : LineHdr) (s : State), s.Hears ln → s.Lets ln .write .anchor → fld (s.reg Reg.pwrWake) 0 3 ≠ 0 →
    Replies (exec (.anchor ln) s) ln.src [] fun u =>
      u = { s with power := { s.power with
        anchorDue := some (s.power.anchorDue.getD (s.clk + 1000 * s.regN Reg.anchorDly)) } })

/-- ANCHOR with PWR.WAKE 0 is refused: no wake could end it (R62). -/
def Obligations.AnchorNeedsAWakeSource : Prop :=
  ∀ (ln : LineHdr) (s : State), s.Hears ln → s.Lets ln .write .anchor → fld (s.reg Reg.pwrWake) 0 3 = 0 →
    Refuses s (exec (.anchor ln) s) ln.src { code := 12, detail := [.word "PWR.WAKE"] }

/-- MOOR, ARM, GO and HALT (R202 to R204, R206, Table 8.3): each in the state that lets it takes the unit to its new state, with its record and
notice, and leaves registers, chain time, latches and holds as they are, but that ARM of a unit that only waits to power down as MOORED does
nothing (R67; log 27); GO from STRANDED clears the counts, and every crossing in stage DECIDED ends on HALT. ARM refused (R202): a KILL latch, a
STOP latch, an unset chain time, and a hold-up supply that PWR.HLD_CFG asks for and is not ready; that they come in this order is the model's
choice (log 101). -/
def Obligations.StateVerbsMoveTheUnit : Prop :=
  ((∀ (ln : LineHdr) (s : State), s.Hears ln → s.Lets ln .write .moor → s.Calm → s.judged = .ready →
    Replies (exec (.moor ln) s) ln.src [] fun u =>
      u.unit = { s.unit with st := .moored } ∧ (∀ c : Fin 32, u.solDemand c = .off true) ∧ Drives s u) ∧
  (∀ (ln : LineHdr) (s : State), s.Hears ln → s.Lets ln .write .moor → s.Calm → s.judged = .safe → s.unit.safe = 8 →
    Replies (exec (.moor ln) s) ln.src [] fun u => u.unit = { s.unit with st := .moored, safe := 0 } ∧ Drives s u) ∧
  (∀ (ln : LineHdr) (s : State), s.Hears ln → s.Lets ln .write .moor → s.judged = .moored →
    exec (.moor ln) s = .next (s.reply ln.src (.ok []) false)) ∧
  (∀ (ln : LineHdr) (s : State), s.Hears ln → s.Lets ln .write .arm → s.Calm → s.unit.st = .moored → s.unit.kill = false →
    s.stopLatched = false → s.clocks.mode ≠ .unset → (bit (s.reg Reg.hldCfg) 1 = true → s.power.hldOk = true) →
    Replies (exec (.arm ln) s) ln.src [] fun u => u.unit = { s.unit with st := .ready } ∧ Drives s u) ∧
  (∀ (ln : LineHdr) (s : State), s.Hears ln → s.Lets ln .write .arm → s.unit.st ≠ .moored → s.unit.kill = false →
    s.stopLatched = false → s.clocks.mode ≠ .unset → (bit (s.reg Reg.hldCfg) 1 = true → s.power.hldOk = true) →
    exec (.arm ln) s = .next (s.reply ln.src (.ok []) false)) ∧
  (∀ (ln : LineHdr) (s : State), s.Hears ln → s.Lets ln .write .go → s.Calm → s.clocks.mode = .track → s.clocks.aligned = true →
    s.anyStale = false → s.unit.st = .ready →
    Replies (exec (.go ln) s) ln.src [] fun u => u.unit = { s.unit with st := .underway } ∧ Drives s u) ∧
  (∀ (ln : LineHdr) (s : State), s.Hears ln → s.Lets ln .write .go → s.Calm → s.clocks.mode = .track → s.clocks.aligned = true →
    s.anyStale = false → s.unit.st = .stranded →
    Replies (exec (.go ln) s) ln.src [] fun u =>
      u.unit = { s.unit with st := .underway, strUsed := 0, strUs := 0 } ∧ Drives s u) ∧
  (∀ (ln : LineHdr) (s : State), s.Hears ln → s.Lets ln .write .halt → s.Calm → (s.unit.st = .underway ∨ s.unit.st = .stranded) →
    Replies (exec (.halt ln) s) ln.src [] fun u =>
      u.unit = { s.unit with st := .ready } ∧ (∀ c : Fin 40, (u.engine.chans[c]).decided = []) ∧ Drives s u) ∧
  (∀ (ln : LineHdr) (s : State), s.Hears ln → s.Lets ln .write .halt → s.Calm → s.unit.st = .ready →
    exec (.halt ln) s = .next (s.reply ln.src (.ok []) false))) ∧
  (∀ (ln : LineHdr) (s : State), s.Hears ln → s.Lets ln .write .arm →
    (s.unit.kill = true → Refuses s (exec (.arm ln) s) ln.src { code := 18, detail := [.word "KILL"] }) ∧
    (s.unit.kill = false → s.stopLatched = true → Refuses s (exec (.arm ln) s) ln.src { code := 18, detail := [.word "STOP"] }) ∧
    (s.unit.kill = false → s.stopLatched = false → s.clocks.mode = .unset →
      Refuses s (exec (.arm ln) s) ln.src { code := 16, detail := [.word "TIME"] }) ∧
    (s.unit.kill = false → s.stopLatched = false → s.clocks.mode ≠ .unset → bit (s.reg Reg.hldCfg) 1 = true → s.power.hldOk = false →
      Refuses s (exec (.arm ln) s) ln.src { code := 16, detail := [.word "HLDOK"] }))

/-- SHUT and FREE (R216, R219): SHUT holds exactly the channels it names beside those held, ends what was decided or cast on them, and turns a held
solenoid off; FREE takes their holds away. Manual verbs in READY (R294, R302, R329): the demand of each solenoid or valve they name is that of the
verb, in force where no higher demand stands; other channels keep theirs. -/
def Obligations.HoldsAndManualVerbs : Prop :=
  ((∀ (ln : LineHdr) (chans : List ChanItem) (s : State), s.Hears ln → s.Lets ln .write .notDock → s.Calm → s.listErr .all chans = none →
    Replies (exec (.shut ln chans) s) ln.src [] fun u =>
      (∀ c : Fin 40, u.held c = (s.held c || (s.listChans chans).contains c)) ∧
      (∀ c : Fin 32, u.held (chS c) = true → u.solDemand c = .off true) ∧
      (∀ c ∈ s.listChans chans, s.held c = false → (u.engine.chans[c]).decided = []) ∧
      u.unit = { s.unit with shut := u.unit.shut } ∧ Drives s u) ∧
  (∀ (ln : LineHdr) (chans : List ChanItem) (s : State), s.Hears ln → s.Lets ln .write .notDock → s.Calm → s.listErr .all chans = none →
    Replies (exec (.free ln chans) s) ln.src [] fun u =>
      (∀ c : Fin 40, u.held c = (s.held c && !(s.listChans chans).contains c)) ∧ u.unit = { s.unit with shut := u.unit.shut } ∧ Drives s u)) ∧
  ((∀ (ln : LineHdr) (chans : List ChanItem) (s : State), s.Hears ln → s.Calm → s.manualErr ln .all chans = none →
    Replies (exec (.openVerb ln chans) s) ln.src [] fun u =>
      (∀ c : Fin 32, (u.sol.chans[c]).manual = if (s.listChans chans).contains (chS c) then .on else (s.sol.chans[c]).manual) ∧
      (∀ v : Fin 8, (u.pwm.valves[v]).manual =
        if (s.listChans chans).contains (chV v) then .toEnd .open_ else (s.pwm.valves[v]).manual) ∧ Steady s u) ∧
  (∀ (ln : LineHdr) (chans : List ChanItem) (s : State), s.Hears ln → s.Calm → s.manualErr ln .all chans = none →
    Replies (exec (.close ln chans) s) ln.src [] fun u =>
      (∀ c : Fin 32, (u.sol.chans[c]).manual = if (s.listChans chans).contains (chS c) then .none else (s.sol.chans[c]).manual) ∧
      (∀ v : Fin 8, (u.pwm.valves[v]).manual =
        if (s.listChans chans).contains (chV v) then .toEnd .closed else (s.pwm.valves[v]).manual) ∧ Steady s u) ∧
  (∀ (ln : LineHdr) (chans : List ChanItem) (f d : Nat) (p : Option Nat) (s : State), s.Hears ln → s.Calm →
    s.manualErr ln .sol chans = none → 5 ≤ f → f ≤ 50 → 5 ≤ d → d ≤ 100 → (∀ n, p = some n → n ≤ 99) →
    Replies (exec (.pulse ln chans { val := f } { val := d } (p.map fun n => { val := n })) s) ln.src [] fun u =>
      (∀ c : Fin 32, (u.sol.chans[c]).manual =
        if (s.listChans chans).contains (chS c) then .pulse { f := f, d := d, p := p.getD 0 } else (s.sol.chans[c]).manual) ∧ Steady s u) ∧
  (∀ (ln : LineHdr) (chans : List ChanItem) (e : Option ValveEnd) (s : State), s.Hears ln → s.Calm → s.manualErr ln .valve chans = none →
    Replies (exec (.home ln chans e) s) ln.src [] fun u =>
      (∀ v : Fin 8, (u.pwm.valves[v]).manual =
        if (s.listChans chans).contains (chV v) then .toEnd (e.getD (s.homeEnd v)) else (s.pwm.valves[v]).manual) ∧ Steady s u) ∧
  (∀ (ln : LineHdr) (v : Fin 8) (n : Int) (s : State), s.Hears ln → s.Lets ln .write .manual → s.Calm → (s.valveMode v).runs = true →
    s.held (chV v) = false → -100 ≤ n → n ≤ 100 →
    Replies (exec (.drive ln { val := 32 + v.val } { val := n }) s) ln.src [] fun u =>
      (u.pwm.valves[v]).manual = .drive n ∧ (∀ w, w ≠ v → (u.pwm.valves[w]).manual = (s.pwm.valves[w]).manual) ∧ Steady s u))

/-- A manual verb that names a held channel, in a list that earns no other refusal, is refused with ERR 18 ACTIVE SHUT and acts on no channel it names
(R217). -/
def Obligations.ManualVerbsRespectHolds : Prop :=
  ∀ (ln : LineHdr) (chans : List ChanItem) (c : Fin 40) (s : State), s.Hears ln → s.Lets ln .write .manual → c ∈ s.listChans chans →
    s.held c = true → s.modeErr (s.listChans chans) = none →
    let e : Err := { code := 18, detail := [.word "SHUT"] }
    (s.listErr .all chans = none →
      Refuses s (exec (.openVerb ln chans) s) ln.src e ∧ Refuses s (exec (.close ln chans) s) ln.src e) ∧
    (s.listErr .sol chans = none → ∀ (f d : Nat) (p : Option Nat), 5 ≤ f → f ≤ 50 → 5 ≤ d → d ≤ 100 → (∀ n, p = some n → n ≤ 99) →
      Refuses s (exec (.pulse ln chans { val := f } { val := d } (p.map fun n => { val := n })) s) ln.src e) ∧
    (s.listErr .valve chans = none → ∀ end_, Refuses s (exec (.home ln chans end_) s) ln.src e) ∧
    (chans = [.one c.val] → s.listErr .valve chans = none → ∀ n : Int, -100 ≤ n → n ≤ 100 →
      Refuses s (exec (.drive ln { val := c.val } { val := n }) s) ln.src e)

/-- CROSS (R251, R253): an accepted crossing joins the tail of its channel's manifest, after the stale ones there are gone, and the reply gives the
number then held; nothing else changes. An id in use and a full manifest are refused. The other recalls (R271, R273, R274): one of a crossing
decided takes it away; one of a crossing cast and not landed ends it, restores the level before and turns a solenoid's coil off or, for a CLOSE,
lets it open again; a valve's travel reverses, and the reverse stands as the current crossing (log 41); one of a crossing that has landed casts
back to the level before; ALL takes every crossing of a channel, or of the unit, but those landed and the reverse casts, a current one in stage
CAST as its own recall does, and the reply counts them. The detail words of CROSS are log 14. -/
def Obligations.CrossingsAreLoadedAndRecalled : Prop :=
  ((∀ (ln : LineHdr) (c : Fin 40) (pos ident : Word) (act : CrossAction) (duty flags : Option Nat) (s : State), s.Hears ln →
    s.crossErr ln { val := c.val } { val := pos.toNat } act { val := ident.toNat } (duty.map fun n => { val := n })
      (flags.map fun n => { val := n }) = none →
    let n := flags.getD 0
    let x : Crossing :=
      { target := pos, ident := ident, action := act, duty := duty.getD 0, dir := n % 4, late := n.testBit 2, noLearn := n.testBit 3
        notify := n.testBit 4, noTc := n.testBit 5, stale := false }
    let kept := (s.engine.chans[c]).manifest.filter fun y => !y.stale
    Replies (exec (.cross ln { val := c.val } { val := pos.toNat } act { val := ident.toNat } (duty.map fun n => { val := n })
        (flags.map fun n => { val := n })) s)
      ln.src [.word "CROSS", .num c.val, .num ident.toNat, .num (kept.length + 1)] fun u =>
      u = { s with engine := { s.engine with chans := upd s.engine.chans c fun y => { y with manifest := kept ++ [x] } } }) ∧
  (∀ (ln : LineHdr) (c : Fin 40) (pos ident : Word) (y : Crossing) (s : State), s.Hears ln → s.Lets ln .write .cross → s.oddChan c = false →
    s.notValve c = false → s.crossOff c = false → y ∈ (s.engine.chans[c]).manifest → y.stale = false → y.ident = ident →
    Refuses s (exec (.cross ln { val := c.val } { val := pos.toNat } .open_ { val := ident.toNat } none none) s) ln.src
      { code := 18, detail := [.word "ID"] }) ∧
  (∀ (ln : LineHdr) (c : Fin 40) (pos ident : Word) (s : State), s.Hears ln → s.Lets ln .write .cross → s.oddChan c = false →
    s.notValve c = false → s.crossOff c = false → (s.engine.chans[c]).hasId ident = false →
    s.depth c ≤ ((s.engine.chans[c]).manifest.filter fun y => !y.stale).length →
    Refuses s (exec (.cross ln { val := c.val } { val := pos.toNat } .open_ { val := ident.toNat } none none) s) ln.src
      { code := 17, detail := [.word ("CH" ++ twoDigits c.val)] })) ∧
  ((∀ (ln : LineHdr) (c : Fin 32) (k : Current) (s : State), s.Hears ln → s.Lets ln .write .notDock → s.Calm → s.isOdd c = false →
    (s.engine.chans[chS c]).manifest = [] → (s.engine.chans[chS c]).decided = [] → (s.engine.chans[chS c]).cur = some k →
    k.stage = .cast → k.reverse = false →
    Replies (exec (.recallOne ln { val := c.val } { val := k.x.ident.toNat }) s) ln.src
      [.word "RECALL", .num c.val, .num k.x.ident.toNat, .word "CAST"] fun u =>
      (u.engine.chans[chS c]).cur = none ∧ (u.engine.chans[chS c]).level = k.before ∧ u.engine.evt.getLsbD 3 = true ∧
      u.unit = s.unit ∧ Drives s u ∧
      (k.x.action ≠ .close → (u.sol.chans[c]).want = false ∧ (u.sol.chans[c]).pulsing = false) ∧
      (k.x.action = .close → k.before = .open_ → s.unit.st.casting = true → s.held (chS c) = false → s.killed (chS c) = false →
        (s.sol.chans[c]).fault = 0 → s.domainOn c.val = true → s.keeperHolds = false → u.solDemand c = .on)) ∧
  (∀ (ln : LineHdr) (v : Fin 8) (k : Current) (s : State), s.Hears ln → s.Lets ln .write .notDock → s.Calm →
    (s.engine.chans[chV v]).manifest = [] → (s.engine.chans[chV v]).decided = [] → (s.engine.chans[chV v]).cur = some k →
    k.stage = .cast → k.reverse = false → s.limAsserted v .open_ = false ∨ s.limAsserted v .closed = false →
    Replies (exec (.recallOne ln { val := 32 + v.val } { val := k.x.ident.toNat }) s) ln.src
      [.word "RECALL", .num (32 + v.val), .num k.x.ident.toNat, .word "CAST"] fun u =>
      (u.engine.chans[chV v]).cur = some (k.reversed s.time (s.travelled v)) ∧ (u.engine.chans[chV v]).level = k.before ∧
      u.engine.evt.getLsbD 3 = true ∧ u.unit = s.unit ∧ Drives s u) ∧
  (∀ (ln : LineHdr) (c : Fin 40) (k : Current) (s : State), s.Hears ln → s.Lets ln .write .notDock → s.Calm → s.oddChan c = false →
    (∀ y ∈ (s.engine.chans[c]).manifest, y.ident ≠ k.x.ident) →
    (s.engine.chans[c]).decided.find? (fun j => decide (j.x.ident = k.x.ident)) = some k →
    Replies (exec (.recallOne ln { val := c.val } { val := k.x.ident.toNat }) s) ln.src
      [.word "RECALL", .num c.val, .num k.x.ident.toNat, .word "DECIDED"] fun u =>
      (u.engine.chans[c]).decided = (s.engine.chans[c]).decided.erase k ∧
      (u.engine.chans[c]).level = (s.engine.chans[c]).level ∧ u.engine.evt.getLsbD 3 = true ∧ u.unit = s.unit ∧ Drives s u) ∧
  (∀ (ln : LineHdr) (c : Fin 40) (k : Current) (s : State), s.Hears ln → s.Lets ln .write .notDock → s.Calm → s.oddChan c = false →
    (s.engine.chans[c]).manifest = [] → (s.engine.chans[c]).decided = [] → (s.engine.chans[c]).cur = some k →
    k.stage = .landed → k.reverse = false →
    Replies (exec (.recallOne ln { val := c.val } { val := k.x.ident.toNat }) s) ln.src
      [.word "RECALL", .num c.val, .num k.x.ident.toNat, .word "LANDED"] fun u =>
      (∃ j, (u.engine.chans[c]).cur = some j ∧ j.reverse = true) ∧ (u.engine.chans[c]).level = k.before ∧
      u.engine.evt.getLsbD 4 = true ∧ u.unit = s.unit ∧ Drives s u) ∧
  (∀ (ln : LineHdr) (c : Fin 40) (s : State), s.Hears ln → s.Lets ln .write .notDock → s.oddChan c = false → s.Calm →
    Replies (exec (.recallChannelAll ln { val := c.val }) s) ln.src (s.recallCounts [c]) fun u =>
      (u.engine.chans[c]).manifest = [] ∧ (u.engine.chans[c]).decided = [] ∧
      (∀ k, (s.engine.chans[c]).cur = some k → k.stage ≠ .landed → k.reverse = false →
        (u.engine.chans[c]).level = k.before ∧ u.engine.evt.getLsbD 3 = true ∧
        (c.val < 32 → (u.engine.chans[c]).cur = none) ∧
        (∀ v : Fin 8, c = chV v → s.limAsserted v .open_ = false ∨ s.limAsserted v .closed = false →
          (u.engine.chans[c]).cur = some (k.reversed s.time (s.travelled v)))) ∧
      (∀ k, (s.engine.chans[c]).cur = some k → c.val < 32 → k.stage = .landed ∨ k.reverse = true →
        (u.engine.chans[c]).cur = some k ∧ (u.engine.chans[c]).level = (s.engine.chans[c]).level) ∧
      (∀ d : Fin 40, d ≠ c → (u.engine.chans[d]).manifest = (s.engine.chans[d]).manifest) ∧ u.unit = s.unit ∧ Drives s u) ∧
  (∀ (ln : LineHdr) (s : State), s.Hears ln → s.Lets ln .write .notDock → s.Calm →
    Replies (exec (.recallAll ln) s) ln.src (s.recallCounts (allChans.filter fun c => !s.oddChan c)) fun u =>
      (∀ c : Fin 40, s.oddChan c = false → (u.engine.chans[c]).manifest = [] ∧ (u.engine.chans[c]).decided = [] ∧
        (∀ k, (s.engine.chans[c]).cur = some k → k.stage ≠ .landed → k.reverse = false →
          (u.engine.chans[c]).level = k.before ∧ u.engine.evt.getLsbD 3 = true ∧ (c.val < 32 → (u.engine.chans[c]).cur = none) ∧
          (∀ v : Fin 8, c = chV v → s.limAsserted v .open_ = false ∨ s.limAsserted v .closed = false →
            (u.engine.chans[c]).cur = some (k.reversed s.time (s.travelled v)))) ∧
        (∀ k, (s.engine.chans[c]).cur = some k → c.val < 32 → k.stage = .landed ∨ k.reverse = true →
          (u.engine.chans[c]).cur = some k ∧ (u.engine.chans[c]).level = (s.engine.chans[c]).level)) ∧ u.unit = s.unit ∧ Drives s u))

/-- A recall of a pending crossing removes it from its manifest and does nothing else; the reply says PENDING (R271, R272). -/
def Obligations.RecallOfAPendingCrossing : Prop :=
  ∀ (ln : LineHdr) (c : Fin 40) (y : Crossing) (s : State), s.Hears ln → s.Lets ln .write .notDock → s.oddChan c = false →
    (s.engine.chans[c]).manifest.find? (fun z => decide (z.ident = y.ident)) = some y →
    Replies (exec (.recallOne ln { val := c.val } { val := y.ident.toNat }) s) ln.src
      [.word "RECALL", .num c.val, .num y.ident.toNat, .word "PENDING"] fun u =>
      u = { s with engine := { s.engine with chans := upd s.engine.chans c fun x => { x with manifest := x.manifest.erase y } } }

/-- SPEED and TIME with a date (R244, R392): SPEED is kept with chain time as the unit's newest SPEED line; a date sets the calendar, clears its
marks, is recorded with its days and seconds, and is answered with the time. TRACE (R356, R358, R359, Table 13.8): status and dump tell; ARM
clears a bank and latches its settings, and with PRE 0 leaves it in WAIT (log 56); FORCE marks one that fills or waits; STOP stops one that
captures. -/
def Obligations.SpeedDatesAndTraces : Prop :=
  ((∀ (ln : LineHdr) (v w : Int) (s : State), s.Hears ln → s.Lets ln .write .settings → -25000 ≤ v → v ≤ 25000 → -3000 ≤ w → w ≤ 3000 →
    Replies (exec (.speed ln { val := v } { val := w }) s) ln.src [] fun u =>
      u.motion.speed = some { v := v, w := w, t := s.time } ∧ u.motion.speedStale = false ∧ u.motion.speedTold = false ∧ u.motion.pos = s.motion.pos ∧ u.unit = s.unit ∧
      u.engine = s.engine ∧ Drives s u) ∧
  (∀ (ln : LineHdr) (d : DateArg) (s : State), s.Hears ln → s.Lets ln .write .always → DateOk d = true →
    ∃ u : State, exec (.timeSet ln d) s = .next (u.reply ln.src (.ok u.timeToks) false) ∧
      u.cal = { s.cal with secs := BitVec.ofNat 17 (dateSecs d), days := BitVec.ofNat 18 (dateDays d), sub := 0, subFrac := 0, set := true, ended := false
                           drift := false } ∧
      u = { s with cal := u.cal, recorder := u.recorder }) ∧
  (∀ (ln : LineHdr) (d : DateArg) (s : State), s.Hears ln → s.Lets ln .write .always → DateOk d = false →
    Refuses s (exec (.timeSet ln d) s) ln.src { code := 19 })) ∧
  ((∀ (ln : LineHdr) (b : Fin 4) (s : State), s.Hears ln → s.Lets ln .write .notDock → s.domainOn (93 + b.val) = true →
    let x := s.pilot.traces[b]
    let n : LineNum := { val := b.val }
    exec (.traceStatus ln n) s = .next (s.reply ln.src
      (.ok [.word "TRACE", .num b.val, .word x.st.word, .num x.entries.length, .num x.tidx]) false) ∧
    (∀ i : Nat, x.st.captures = false → i < x.entries.length →
      exec (.traceDump ln n { val := i }) s = .next (s.reply ln.src
        (.ok [.word "TRACE", .num b.val, .word "DUMP", .num i, .block ((x.entries.drop i).take 12)]) false)) ∧
    (Replies (exec (.traceArm ln n) s) ln.src [] fun u =>
      (u.pilot.traces[b]).entries = [] ∧ (u.pilot.traces[b]).cfg = s.reg (Reg.trc b 0) ∧ (u.pilot.traces[b]).pre = s.regN (Reg.trc b 3) ∧
      (u.pilot.traces[b]).st = (if s.regN (Reg.trc b 3) = 0 then .wait else .fill) ∧ (u.pilot.traces[b]).armedAt = s.time ∧
      (∀ d, d ≠ b → u.pilot.traces[d] = s.pilot.traces[d]) ∧ u = { s with pilot := { s.pilot with traces := u.pilot.traces } }) ∧
    (Replies (exec (.traceForce ln n) s) ln.src [] fun u =>
      u = { s with pilot := { s.pilot with traces := upd s.pilot.traces b fun y =>
        if y.st = .fill ∨ y.st = .wait then { y with forced := true } else y } }) ∧
    (Replies (exec (.traceStop ln n) s) ln.src [] fun u =>
      u = { s with pilot := { s.pilot with traces := upd s.pilot.traces b fun y =>
        if y.st.captures then { y with st := .stopped } else y } })))

/-- ADOPT and LOCK (R166, R192): under `@0` ADOPT with the unit's serial number gives it its address and no valid hop delay, and sets ADOPTED; with
another's it is ignored without a reply; LOCK from the chain sets and clears the lock of the console. -/
def Obligations.AdoptAndLock : Prop :=
  (∀ (n : Nat) (s : State), s.Hears { src := .chain, addr := .zero } → s.Lets { src := .chain, addr := .zero } .write .always → 1 ≤ n → n ≤ 128 →
    Replies (exec (.adopt { src := .chain, addr := .zero } s.chain.serial { val := n }) s) .chain [] fun u =>
      u = { s with chain :=
        { s.chain with addr := BitVec.ofNat 8 n, evt := raise s.chain.evt 11, hopBValid := false, hopSValid := false } }) ∧
  (∀ (serial : ChainTime) (n : Nat) (s : State), s.Hears { src := .chain, addr := .zero } → serial ≠ s.chain.serial →
    exec (.adopt { src := .chain, addr := .zero } serial { val := n }) s = .next s) ∧
  (∀ (adr : AddrForm) (s : State), s.Hears { src := .chain, addr := adr } → s.Lets { src := .chain, addr := adr } .write .notDock →
    (Replies (exec (.lockConsole { src := .chain, addr := adr }) s) .chain [] fun u => u = { s with manil := { s.manil with conLock := true } }) ∧
    (Replies (exec (.lockNone { src := .chain, addr := adr }) s) .chain [] fun u => u = { s with manil := { s.manil with conLock := false } }))

/-- Table 8.6: a heard line of any row that the unit's state refuses is answered ERR 13 with that state and does nothing else; ARM, GO, CROSS and the
manual verbs are answered ERR 22 in DRYDOCK (R102, R211). The rows are those that `Legal.allows` marks. While a handover runs every line but ID,
STATE, GET and LOG is answered ERR 16 BUSY HANDOVER (R73), before its values are judged (log 29). The console writes only in MOORED and only while
it is not locked (R191, R192): else a line of the write class is answered ERR 14, its detail MOORED where both hold (log 17). A line addressed to
another unit does nothing (R171). -/
def Obligations.LinesAreRefusedByStateAndSource : Prop :=
  ((∀ (ln : LineHdr) (a : LineArgs) (s : State), s.Hears ln → ln.src = .chain → a.Ok → s.power.handover = none →
    (s.judged = .drydock → ∀ i ∈ queryLines ln a, Refuses s (exec i s) ln.src { code := 13, detail := [.word s.judged.word] }) ∧
    ∀ row ∈ writeRows ln a, s.judged ∉ row.1 → ∀ i ∈ row.2.2,
      Refuses s (exec i s) ln.src
        (if row.2.1 = true ∧ s.judged = .drydock then { code := 22 } else { code := 13, detail := [.word s.judged.word] })) ∧
  (∀ (ln : LineHdr) (a : LineArgs) (u : UnitState),
    (writeRows ln a).map (fun row => decide (u ∈ row.1)) =
      ([.notDock, .settings, .moored, .imageWrite, .dockOnly, .reset, .anchor, .moor, .arm, .go, .halt, .moorOrSafe, .manual, .cross,
        .moorOrSafe, .clear] : List Legal).map (·.allows u))) ∧
  ((∀ (ln : LineHdr) (a : LineArgs) (s : State), s.Hears ln → ln.src = .chain → a.Ok → s.power.handover.isSome = true →
    let e : Err := { code := 16, detail := [.word "HANDOVER"] }
    (∀ i ∈ tellingLines ln ++ openLines ln a ++ musterLines ln a ++ queryLines ln a, Refuses s (exec i s) ln.src e) ∧
    (∀ row ∈ writeRows ln a, ∀ i ∈ row.2.2, Refuses s (exec i s) ln.src e)) ∧
  (∀ (n : Int) (s : State), s.Hears { src := .chain, addr := .zero } → s.power.handover.isSome = true →
    Refuses s (exec (.adopt { src := .chain, addr := .zero } s.chain.serial { val := n }) s) .chain { code := 16, detail := [.word "HANDOVER"] })) ∧
  (∀ (adr : AddrForm) (a : LineArgs) (s : State), s.Hears { src := .console, addr := adr } → a.Ok →
    let ln : LineHdr := { src := .console, addr := adr }
    let e (why : String) : Err := { code := 14, detail := [.word why] }
    (s.judged ≠ .moored → (∀ i ∈ openLines ln a, Refuses s (exec i s) .console (e "MOORED")) ∧
      ∀ row ∈ writeRows ln a, ∀ i ∈ row.2.2, Refuses s (exec i s) .console (e "MOORED")) ∧
    (s.judged = .moored → s.manil.conLock = true → (∀ i ∈ openLines ln a, Refuses s (exec i s) .console (e "LOCK")) ∧
      ∀ row ∈ writeRows ln a, ∀ i ∈ row.2.2, Refuses s (exec i s) .console (e "LOCK"))) ∧
  (∀ (adr : AddrForm) (a : LineArgs) (s : State), s.live = true → s.manil.chainQ = [] → s.verdict { src := .chain, addr := adr } = .other →
    let ln : LineHdr := { src := .chain, addr := adr }
    (∀ i ∈ [.id ln, .state ln, .get ln [.reg a.path], .log ln none none] ++ tellingLines ln ++ openLines ln a ++ musterLines ln a ++ queryLines ln a,
      exec i s = .next s) ∧
    ∀ row ∈ writeRows ln a, ∀ i ∈ row.2.2, exec i s = .next s)
end

