-- ==== Sys2Proof/Decode.lean ====
section
/-! DEFINITION. The words of the command table. -/
namespace Sys2Proof

/-- The command a word spells by the table's bits. No row of spec/opcode_table.json has bits: the block's commands are
characters, pins and events, not words; so no word spells one. -/
def decodeTableWord (_nbits _w : Nat) : Option Instr := none

end Sys2Proof
end

