-- ==== Sys2Proof/Laws/Auth.lean ====
section
/-! SUPPORT. The digests have their length: what AUTH's response statements need of SHA-256. -/
namespace Sys2Proof.Machine

open Sys2Proof

@[simp] theorem Working.words_length (v : Working) : v.words.length = 8 := rfl

theorem shaBlock_length (h block : List W32) (hh : h.length = 8) : (shaBlock h block).length = 8 := by
  simp [shaBlock, hh]

theorem shaBlocks_length (n : Nat) : ∀ ws h : List W32, h.length = 8 → (shaBlocks n ws h).length = 8 := by
  induction n with
  | zero => exact fun _ _ h => h
  | succ n ih => exact fun ws h hh => ih _ _ (shaBlock_length h _ hh)

@[simp] theorem beBytes_length (k : Nat) : ∀ n : Nat, (beBytes k n).length = k := by
  induction k with
  | zero => exact fun _ => rfl
  | succ k ih => exact fun n => by simp [beBytes, ih]

/-- A digest has 32 bytes. -/
@[simp] theorem sha256_length (m : List Byte) : (sha256 m).length = 32 := by
  simp [sha256, List.map_const', shaBlocks_length _ _ startWords rfl]

/-- A response has six bytes (R387). -/
@[simp] theorem responseTo_length (key : Vector Word 6) (nonce serial : ChainTime) : (responseTo key nonce serial).length = 6 := by
  simp [responseTo, hmac256]

end Sys2Proof.Machine
end

