-- ==== Sys2Proof/Laws/Kept.lean ====
section
/-! SUPPORT. What every operation keeps: the queue of commands that wait, and the soundness of the state. `Kept ws sd s` says
that `ws` is the queue of `s`, that its stores are sound, and, where `sd` asks for it, that SAFE holds while a cause is set. Each
operation has one lemma: what was kept before it is kept after it. -/
namespace Sys2Proof.Machine

open Sys2Proof

/-- The queue is `ws`, the stores are sound, and with `sd` SAFE holds while a cause is set. -/
structure Kept (ws : List Instr) (sd : Bool) (s : State) : Prop where
  pending : s.pending = ws
  stores : s.Stores
  safe : sd = true → s.SafeHolds

variable {ws : List Instr} {sd : Bool} {s : State}

/-- What is kept with SAFE is kept without it. -/
theorem Kept.weaken (h : Kept ws sd s) : Kept ws false s := ⟨h.pending, h.stores, fun e => nomatch e⟩

/-- An update of anything but the queue, the register file and the phase, with each bounded store still bounded and the unit's
state and SAFE causes as they were. -/
theorem Kept.upd (h : Kept ws sd s) {time clk cd08 chain clocks spread ckout power rst boot unit manil motion engine sol pwm pilot safety
    recorder owner cal
    nvm settle} (hu : unit.st = s.unit.st ∧ unit.safe = s.unit.safe) (hc : s.chain.Bounded → chain.Bounded)
    (hm : s.manil.Bounded → manil.Bounded) (ho : s.motion.Bounded → motion.Bounded)
    (hr : s.recorder.Bounded → recorder.Bounded) :
    Kept ws sd ⟨s.phase, s.regs, time, clk, cd08, chain, clocks, spread, ckout, power, rst, boot, unit, manil, motion, engine, sol, pwm, pilot,
      safety, recorder,
      owner, cal, nvm, settle, s.pending⟩ :=
  ⟨h.pending, ⟨h.stores.regs, hc h.stores.chain, hm h.stores.manil, ho h.stores.motion, hr h.stores.recorder⟩, fun e ph ns => by
    have := h.safe e ph
    simp only [hu.1, hu.2] at *
    exact this ns⟩

/-- An update of nothing that is bounded. -/
theorem Kept.other (h : Kept ws sd s) {time clk cd08 clocks spread ckout power rst boot engine sol pwm pilot safety owner cal nvm settle} :
    Kept ws sd ⟨s.phase, s.regs, time, clk, cd08, s.chain, clocks, spread, ckout, power, rst, boot, s.unit, s.manil, s.motion, engine, sol, pwm,
      pilot, safety,
      s.recorder, owner, cal, nvm, settle, s.pending⟩ := h.upd ⟨rfl, rfl⟩ id id id id

/-- A conditional keeps what both its branches keep. -/
theorem Kept.ite {c : Prop} [Decidable c] {x y : State} (hx : Kept ws sd x) (hy : Kept ws sd y) : Kept ws sd (if c then x else y) := by
  split <;> assumption

/-- So does a conditional whose branches use its condition. -/
theorem Kept.dite {c : Prop} [Decidable c] {x : c → State} {y : ¬c → State} (hx : ∀ h, Kept ws sd (x h)) (hy : ∀ h, Kept ws sd (y h)) :
    Kept ws sd (if h : c then x h else y h) := by
  split
  · exact hx _
  · exact hy _

/-- A fold keeps what its step keeps. -/
theorem Kept.foldl {α : Type} {f : State → α → State} (hf : ∀ t a, Kept ws sd t → Kept ws sd (f t a)) (l : List α) :
    ∀ {s : State}, Kept ws sd s → Kept ws sd (l.foldl f s) := by
  induction l with
  | nil => exact fun h => h
  | cons a l ih => exact fun h => ih (hf _ a h)

/-- With SAFE held, a state may be entered that shows SAFE while a cause is set. -/
def State.SafeAs (s : State) (st : UnitState) : Prop :=
  s.phase = .running → s.unit.safe ≠ 0 → st = .safe ∨ st = .drydock

/-- The unit may change at will where SAFE is not asked for. -/
theorem Kept.free (h : Kept ws false s) {phase time clk cd08 clocks spread ckout power rst boot unit engine sol pwm pilot safety owner cal nvm
    settle} :
    Kept ws false ⟨phase, s.regs, time, clk, cd08, s.chain, clocks, spread, ckout, power, rst, boot, unit, s.manil, s.motion, engine, sol, pwm,
      pilot, safety,
      s.recorder, owner, cal, nvm, settle, s.pending⟩ :=
  ⟨h.pending, ⟨h.stores.regs, h.stores.chain, h.stores.manil, h.stores.motion, h.stores.recorder⟩, fun e => nomatch e⟩

/-- A motion that restarts or returns to its source keeps no more pairs. -/
theorem Motion.returnSource_bounded {m : Motion} (h : m.Bounded) : m.returnSource.Bounded := by
  unfold Motion.returnSource
  split
  · exact h
  · exact Nat.zero_le _

/-- Stores that are sound stay so while nothing of them changes. -/
theorem State.Stores.other (h : s.Stores) {phase time clk cd08 clocks spread ckout power rst boot unit engine sol pwm pilot safety owner cal nvm
    settle
    pending} :
    State.Stores ⟨phase, s.regs, time, clk, cd08, s.chain, clocks, spread, ckout, power, rst, boot, unit, s.manil, s.motion, engine, sol, pwm,
      pilot, safety,
      s.recorder, owner, cal, nvm, settle, pending⟩ := ⟨h.regs, h.chain, h.manil, h.motion, h.recorder⟩

/-- A purser without tides and musters. -/
theorem Manil.none_bounded {m : Manil} (ht : m.tides = []) (hm : m.musters = []) : m.Bounded := by
  simp [Manil.Bounded, ht, hm]

/-- Staging a write adds no tide. -/
theorem Manil.stage_bounded {m : Manil} (k : Nat) (a : Nat) (v : Word) (h : m.Bounded) : (m.stage k a v).Bounded := by
  unfold Manil.stage
  split
  · exact ⟨by simpa using h.1, h.2⟩
  · exact h

/-- Lost replies are no notices. -/
theorem Chain.dropReplies_bounded {c : Chain} (h : c.Bounded) : c.dropReplies.Bounded :=
   Nat.le_trans (Nat.add_le_add_right (List.filter_sublist.filter _).length_le _) h

/-- A step of chain time moves the pairs and keeps their number. -/
theorem Motion.shift_bounded {m : Motion} (d : Int) (h : m.Bounded) : (m.shift d).Bounded := by
  simpa [Motion.Bounded, Motion.shift] using h

/-! ### The register file -/

namespace RegFile

/-- A file in its one form without its first entry. -/
theorem wf_tail {x : Nat × Word} : ∀ {l : List (Nat × Word)}, wf (x :: l) = true → wf l = true
  | [], _ => rfl
  | _ :: _, h => by simp only [wf, Bool.and_eq_true] at h; exact h.2

/-- The head's value is not the one after reset. -/
theorem wf_head {a : Nat} {v : Word} : ∀ {l : List (Nat × Word)}, wf ((a, v) :: l) = true → v ≠ resetValue a
  | [], h => by simpa [wf] using h
  | _ :: _, h => by simp only [wf, Bool.and_eq_true, decide_eq_true_eq] at h; exact h.1.1

/-- Every address of a file in its one form. -/
def above (a : Nat) (l : List (Nat × Word)) : Prop := ∀ x ∈ l, a < x.1

/-- The addresses behind the head lie above it. -/
theorem wf_above {a : Nat} {v : Word} : ∀ {l : List (Nat × Word)}, wf ((a, v) :: l) = true → above a l
  | [], _ => by simp [above]
  | (b, w) :: l, h => by
    have t := wf_above (wf_tail h)
    simp only [wf, Bool.and_eq_true, decide_eq_true_eq] at h
    intro x hx
    rcases List.mem_cons.1 hx with rfl | hx
    · exact h.1.2
    · exact Nat.lt_trans h.1.2 (t x hx)

/-- A head below the rest, with a value of its own, keeps the form. -/
theorem wf_cons {a : Nat} {v : Word} (hv : v ≠ resetValue a) : ∀ {l : List (Nat × Word)}, above a l → wf l = true → wf ((a, v) :: l) = true
  | [], _, _ => by simpa [wf] using hv
  | (b, w) :: l, ha, hw => by
    simp only [wf, Bool.and_eq_true, decide_eq_true_eq]
    exact ⟨⟨hv, ha (b, w) (by simp)⟩, hw⟩

/-- Removing keeps what lies above. -/
theorem above_remove {a c : Nat} : ∀ {l : List (Nat × Word)}, above c l → above c (remove l a)
  | [], h => h
  | (b, v) :: l, h => by
    have t : above c l := fun x hx => h x (List.mem_cons_of_mem _ hx)
    unfold remove
    split
    · exact t
    · intro x hx
      rcases List.mem_cons.1 hx with rfl | hx
      · exact h (b, v) (by simp)
      · exact above_remove t x hx

/-- Inserting above keeps what lies above. -/
theorem above_insert {a c : Nat} {v : Word} (hc : c < a) : ∀ {l : List (Nat × Word)}, above c l → above c (insert l a v)
  | [], _ => by simp [insert, above, hc]
  | (b, u) :: l, h => by
    have t : above c l := fun x hx => h x (List.mem_cons_of_mem _ hx)
    unfold insert
    split
    · intro x hx
      rcases List.mem_cons.1 hx with rfl | hx
      · exact hc
      · exact h x hx
    split
    · intro x hx
      rcases List.mem_cons.1 hx with rfl | hx
      · exact hc
      · exact t x hx
    · intro x hx
      rcases List.mem_cons.1 hx with rfl | hx
      · exact h (b, u) (by simp)
      · exact above_insert hc t x hx

/-- Removing keeps the form. -/
theorem remove_wf (a : Nat) : ∀ {l : List (Nat × Word)}, wf l = true → wf (remove l a) = true
  | [], h => h
  | (b, v) :: l, h => by
    unfold remove
    split
    · exact wf_tail h
    · exact wf_cons (wf_head h) (above_remove (wf_above h)) (remove_wf a (wf_tail h))

/-- Inserting a value of its own keeps the form. -/
theorem insert_wf {a : Nat} {v : Word} (hv : v ≠ resetValue a) : ∀ {l : List (Nat × Word)}, wf l = true → wf (insert l a v) = true
  | [], _ => by simpa [insert, wf] using hv
  | (b, u) :: l, h => by
    unfold insert
    split
    · rename_i hb
      refine wf_cons hv (fun x hx => ?_) h
      rcases List.mem_cons.1 hx with rfl | hx
      · exact hb
      · exact Nat.lt_trans hb (wf_above h x hx)
    split
    · rename_i hb
      subst hb
      exact wf_cons hv (wf_above h) (wf_tail h)
    · rename_i hb hne
      exact wf_cons (wf_head h) (above_insert (by omega) (wf_above h)) (insert_wf hv (wf_tail h))

/-- A write keeps the form. -/
theorem write_wf {l : List (Nat × Word)} (h : wf l = true) (a : Nat) (v : Word) : wf (write l a v) = true := by
  unfold write
  split
  · exact remove_wf a h
  · exact insert_wf ‹_› h

end RegFile

/-! ### The recorder -/

/-- A repeat adds no record. -/
theorem bumpRepeat_length (q : Word) (l : List Record) : (bumpRepeat q l).length = l.length := by simp [bumpRepeat]

/-- A push keeps the queue within 32. -/
theorem Recorder.push_bounded {r : Recorder} (h : r.Bounded) (code source rep : Nat) (data : Word) :
    (r.push code source rep data).Bounded := by
  unfold Recorder.push
  split
  · exact h
  · exact ⟨by simp; omega, h.2⟩

/-- A new record keeps the bounds. -/
theorem Recorder.writeNew_bounded {r : Recorder} (h : r.Bounded) (code source : Nat) (data : Word) (cont : Option Word) :
    (r.writeNew code source data cont).Bounded := by
  have h2 : (match cont with
      | some c => (r.push code source 1 data).push 0x2C0 source 1 c
      | none => r.push code source 1 data).Bounded := by
    cases cont
    · exact Recorder.push_bounded h ..
    · exact Recorder.push_bounded (Recorder.push_bounded h ..) ..
  unfold Recorder.writeNew
  dsimp only
  split
  · exact h2
  · exact h2

/-- An event under REPEAT keeps the bounds. -/
theorem Recorder.writeRepeat_bounded {r : Recorder} (h : r.Bounded) (code source : Nat) (data : Word) (cont : Option Word) :
    (r.writeRepeat code source data cont).Bounded := by
  unfold Recorder.writeRepeat
  split
  · exact Recorder.writeNew_bounded h ..
  · dsimp only
    split
    · exact Recorder.writeNew_bounded ⟨by simpa [bumpRepeat_length] using h.1, by simpa [bumpRepeat_length] using h.2⟩ ..
    · exact ⟨by simpa [bumpRepeat_length] using h.1, by simpa [bumpRepeat_length] using h.2⟩

/-- An event under RATE keeps the bounds. -/
theorem Recorder.writeRate_bounded {r : Recorder} (h : r.Bounded) (n code source : Nat) (data : Word) (cont : Option Word) :
    (r.writeRate n code source data cont).Bounded := by
  have hw (x : List RateCount) : ({ r with rates := x } : Recorder).Bounded := h
  unfold Recorder.writeRate
  split
  · exact Recorder.writeNew_bounded h ..
  · dsimp only
    split
    · split
      · exact hw _
      · exact Recorder.writeNew_bounded (hw _) ..
    · split
      · exact Recorder.writeNew_bounded (hw _) ..
      · exact hw _

/-- The SUPPRESSED records of a window keep the bounds. -/
theorem Recorder.suppressed_bounded {r : Recorder} (h : r.Bounded) (x : RateCount) : (r.suppressed x).Bounded := by
  unfold Recorder.suppressed
  dsimp only
  split <;> exact Recorder.push_bounded h ..

/-- A rate window that ends, or goes on, keeps the bounds. -/
theorem Recorder.roll_bounded {r : Recorder} (h : r.Bounded) (clk : Nat) : (r.roll clk).Bounded := by
  have fold (l : List RateCount) : ∀ {x : Recorder}, x.Bounded → (l.foldl Recorder.suppressed x).Bounded := by
    induction l with
    | nil => exact fun h => h
    | cons a l ih => exact fun h => ih (Recorder.suppressed_bounded h a)
  unfold Recorder.roll
  split
  · split
    · exact fold _ h
    · exact h
  · exact h

/-- What is held is at most 4096 records. -/
theorem Recorder.held_length (r : Recorder) : r.held.length ≤ 4096 := by
  simp only [Recorder.held, List.length_drop]
  omega

/-- Committing everything keeps the bounds. -/
theorem Recorder.commitAll_bounded (r : Recorder) : r.commitAll.Bounded :=
  ⟨by simp [Recorder.commitAll], by simpa [Recorder.commitAll] using r.held_length⟩

/-! ### The queue on UP -/

/-- A port's counters are no notices. -/
theorem Chain.setPort_bounded (c : Chain) (p : Port) (x : PortState) (h : c.Bounded) : (c.setPort p x).Bounded := by
  cases p <;> exact h

/-- An item that is no notice does not count among the notices. -/
theorem Chain.notices_append_other {c : Chain} {u : UpItem} (hu : ∀ t, u ≠ .notice t) :
    ({ c with upQ := c.upQ ++ [u] } : Chain).notices = c.notices := by
  cases u with
  | notice t => exact absurd rfl (hu t)
  | reply _ _ => simp [Chain.notices]
  | seq _ _ => simp [Chain.notices]

end Sys2Proof.Machine
end

