-- ==== Sys2Proof/Laws/Drives.lean ====
section
/-! SUPPORT. What the operations leave alone. `Drives z s` says that `s` differs from `z` at most in what a unit drives and tells:
its ports and queues for the chain, the console's characters, the supplies' flags and domains, the unit's state, motion, crossings,
coils, slices and valves, loops, pairs and records. Registers, chain time, the clocks, the reset controller, the purser's queues,
staged writes and tides, the owner, the calendar, NVM and the queue of commands are the same in both. Each operation has one lemma. -/
namespace Sys2Proof.Machine

open Sys2Proof

variable {z s : State}

/-- A state drives itself. -/
theorem Drives.refl (s : State) : Drives s s := ⟨rfl⟩

/-- An update of what a unit drives and tells. -/
theorem Drives.upd (h : Drives z s) {chain power unit motion engine sol pwm pilot safety recorder manil}
    (hm : { manil with conTx := [], conLine := [], conBad := false } =
      { s.manil with conTx := [], conLine := [], conBad := false }) :
    Drives z ⟨s.phase, s.regs, s.time, s.clk, s.cd08, chain, s.clocks, s.spread, s.ckout, power, s.rst, s.boot, unit, manil, motion, engine,
      sol, pwm, pilot, safety, recorder, s.owner, s.cal, s.nvm, s.settle, s.pending⟩ := by
  have := h.eq
  constructor
  rw [← this]
  simp [State.still] at *
  exact hm

/-- A conditional drives what both its branches drive. -/
theorem Drives.ite {x y : State} {c : Prop} [Decidable c] (hx : Drives z x) (hy : Drives z y) : Drives z (if c then x else y) := by
  split <;> assumption

/-- So does a conditional whose branches use its condition. -/
theorem Drives.dite {c : Prop} [Decidable c] {x : c → State} {y : ¬c → State} (hx : ∀ h, Drives z (x h)) (hy : ∀ h, Drives z (y h)) :
    Drives z (if h : c then x h else y h) := by
  split
  · exact hx _
  · exact hy _

/-- So does a fold. -/
theorem Drives.foldl {α : Type} {f : State → α → State} (hf : ∀ t a, Drives z t → Drives z (f t a)) (l : List α) :
    ∀ {s : State}, Drives z s → Drives z (l.foldl f s) := by
  induction l with
  | nil => exact fun h => h
  | cons a l ih => exact fun h => ih (hf _ a h)

/-! ### Machine/Ops.lean -/

theorem State.record_still (h : Drives z s) (code : Nat) (source : Nat) (data : Word) (cont : Option Word) :
    Drives z (State.record s code source data cont) := by
  unfold State.record
  try dsimp only
  repeat' first
    | with_reducible assumption
    | with_reducible refine Drives.upd ?_ ?_
    | with_reducible rfl

theorem State.conSend_still (h : Drives z s) (line : String) : Drives z (State.conSend s line) := by
  unfold State.conSend
  try dsimp only
  repeat' first
    | with_reducible assumption
    | with_reducible apply Drives.ite
    | with_reducible refine Drives.upd ?_ ?_
    | with_reducible rfl

theorem State.conLineOut_still (h : Drives z s) (line : String) : Drives z (State.conLineOut s line) := by
  unfold State.conLineOut
  try dsimp only
  repeat' first
    | with_reducible assumption
    | with_reducible apply State.conSend_still

theorem State.queueUp_still (h : Drives z s) (u : UpItem) : Drives z (State.queueUp s u) := by
  unfold State.queueUp
  try dsimp only
  repeat' first
    | with_reducible assumption
    | with_reducible refine Drives.upd ?_ ?_
    | with_reducible rfl

theorem State.notice_still (h : Drives z s) (text : List Tok) : Drives z (State.notice s text) := by
  unfold State.notice
  try dsimp only
  repeat' first
    | with_reducible assumption
    | with_reducible apply State.queueUp_still
    | with_reducible apply State.conLineOut_still
    | with_reducible apply Drives.ite
    | with_reducible refine Drives.upd ?_ ?_
    | with_reducible rfl

theorem State.sendUp_still (h : Drives z s) (w : WireItem) : Drives z (State.sendUp s w) := by
  unfold State.sendUp
  try dsimp only
  repeat' first
    | with_reducible assumption
    | with_reducible apply Drives.ite
    | with_reducible refine Drives.upd ?_ ?_
    | with_reducible rfl

theorem State.sendDn_still (h : Drives z s) (w : WireItem) : Drives z (State.sendDn s w) := by
  unfold State.sendDn
  try dsimp only
  repeat' first
    | with_reducible assumption
    | with_reducible apply Drives.ite
    | with_reducible refine Drives.upd ?_ ?_
    | with_reducible rfl

theorem State.relayUp_still (h : Drives z s) (w : WireItem) : Drives z (State.relayUp s w) := by
  unfold State.relayUp
  try dsimp only
  repeat' first
    | with_reducible assumption
    | with_reducible apply State.sendUp_still
    | with_reducible apply Drives.ite
    | with_reducible refine Drives.upd ?_ ?_
    | with_reducible rfl

theorem State.seizeUp_still (h : Drives z s) (c : ChainChar) : Drives z (State.seizeUp s c) := by
  unfold State.seizeUp
  try dsimp only
  repeat' first
    | with_reducible assumption
    | with_reducible apply State.sendUp_still
    | with_reducible refine Drives.upd ?_ ?_
    | with_reducible rfl

theorem State.forward_still (h : Drives z s) (p : Port) (w : WireItem) : Drives z (State.forward s p w) := by
  unfold State.forward
  try dsimp only
  repeat' first
    | with_reducible assumption
    | with_reducible apply State.sendDn_still
    | with_reducible apply State.relayUp_still
    | with_reducible apply Drives.ite

theorem State.forwardKill_still (h : Drives z s) (p : Port) : Drives z (State.forwardKill s p) := by
  unfold State.forwardKill
  try dsimp only
  repeat' first
    | with_reducible assumption
    | with_reducible apply State.sendDn_still
    | with_reducible apply State.seizeUp_still
    | with_reducible apply Drives.ite

theorem State.forwardIdle_still (p : Port) (n : Nat) : ∀ {s : State}, Drives z s → Drives z (State.forwardIdle s p n) := by
  induction n with
  | zero => exact fun h => h
  | succ n ih => exact fun h => ih (Drives.ite h (Drives.ite (State.sendDn_still h _) (Drives.ite (State.sendUp_still h _) h)))

theorem State.gangwayPass_still (h : Drives z s) (p : Port) (w : WireItem) : Drives z (State.gangwayPass s p w) := by
  unfold State.gangwayPass
  try dsimp only
  repeat' first
    | with_reducible assumption
    | with_reducible apply Drives.ite
    | with_reducible refine Drives.upd ?_ ?_
    | with_reducible rfl

theorem State.modPort_still (h : Drives z s) (p : Port) (f : PortState → PortState) : Drives z (State.modPort s p f) := by
  unfold State.modPort
  try dsimp only
  repeat' first
    | with_reducible assumption
    | with_reducible refine Drives.upd ?_ ?_
    | with_reducible rfl

theorem State.deaf_still (h : Drives z s) (p : Port) (n : Nat) : Drives z (State.deaf s p n) :=
  State.forwardIdle_still p n (State.modPort_still h ..)

theorem State.receive_still (h : Drives z s) (p : Port) (w : WireItem) {take : State → State} (ht : Drives z (take s)) :
    Drives z (State.receive s p w take) :=
  Drives.ite (State.gangwayPass_still h ..) (Drives.ite h (Drives.ite (State.deaf_still h ..) ht))

theorem State.frameError_still (h : Drives z s) (p : Port) : Drives z (State.frameError s p) := by
  unfold State.frameError
  try dsimp only
  repeat' first
    | with_reducible assumption
    | with_reducible apply State.modPort_still

theorem State.crcError_still (h : Drives z s) (p : Port) : Drives z (State.crcError s p) := by
  unfold State.crcError
  try dsimp only
  repeat' first
    | with_reducible assumption
    | with_reducible apply State.modPort_still

theorem State.seqError_still (h : Drives z s) (p : Port) (q : SeqArrival) (n : Nat) : Drives z (State.seqError s p q n) := by
  unfold State.seqError
  try dsimp only
  repeat' first
    | with_reducible assumption
    | with_reducible apply State.crcError_still
    | with_reducible apply State.frameError_still
    | with_reducible apply Drives.ite

theorem State.chnEvt_still (h : Drives z s) (k : Nat) : Drives z (State.chnEvt s k) := by
  unfold State.chnEvt
  try dsimp only
  repeat' first
    | with_reducible assumption
    | with_reducible refine Drives.upd ?_ ?_
    | with_reducible rfl

theorem State.pwrEvt_still (h : Drives z s) (k : Nat) : Drives z (State.pwrEvt s k) := by
  unfold State.pwrEvt
  try dsimp only
  repeat' first
    | with_reducible assumption
    | with_reducible refine Drives.upd ?_ ?_
    | with_reducible rfl

theorem State.staEvt_still (h : Drives z s) (k : Nat) : Drives z (State.staEvt s k) := by
  unfold State.staEvt
  try dsimp only
  repeat' first
    | with_reducible assumption
    | with_reducible refine Drives.upd ?_ ?_
    | with_reducible rfl

theorem State.xngEvt_still (h : Drives z s) (k : Nat) : Drives z (State.xngEvt s k) := by
  unfold State.xngEvt
  try dsimp only
  repeat' first
    | with_reducible assumption
    | with_reducible refine Drives.upd ?_ ?_
    | with_reducible rfl

theorem State.odoEvt_still (h : Drives z s) (k : Nat) : Drives z (State.odoEvt s k) := by
  unfold State.odoEvt
  try dsimp only
  repeat' first
    | with_reducible assumption
    | with_reducible refine Drives.upd ?_ ?_
    | with_reducible rfl

theorem State.enter_still (h : Drives z s) (st : UnitState) (cause : StateCause) : Drives z (State.enter s st cause) := by
  unfold State.enter
  try dsimp only
  repeat' first
    | with_reducible assumption
    | with_reducible apply State.staEvt_still
    | with_reducible apply State.record_still
    | with_reducible apply State.notice_still
    | split
    | with_reducible refine Drives.upd ?_ ?_
    | with_reducible rfl

theorem State.markStale_still (h : Drives z s) : Drives z (State.markStale s) := by
  unfold State.markStale
  try dsimp only
  repeat' first
    | with_reducible assumption
    | with_reducible refine Drives.upd ?_ ?_
    | with_reducible rfl


/-! ### Machine/Operands.lean -/

theorem State.modSol_still (h : Drives z s) (c : Fin 32) (f : SolChan → SolChan) : Drives z (State.modSol s c f) := by
  unfold State.modSol
  try dsimp only
  repeat' first
    | with_reducible assumption
    | with_reducible refine Drives.upd ?_ ?_
    | with_reducible rfl

theorem State.modBank_still (h : Drives z s) (b : Fin 8) (f : Bank → Bank) : Drives z (State.modBank s b f) := by
  unfold State.modBank
  try dsimp only
  repeat' first
    | with_reducible assumption
    | with_reducible refine Drives.upd ?_ ?_
    | with_reducible rfl

theorem State.modBoost_still (h : Drives z s) (f : Boost → Boost) : Drives z (State.modBoost s f) := by
  unfold State.modBoost
  try dsimp only
  repeat' first
    | with_reducible assumption
    | with_reducible refine Drives.upd ?_ ?_
    | with_reducible rfl

theorem State.modSlice_still (h : Drives z s) (i : Fin 12) (f : Slice → Slice) : Drives z (State.modSlice s i f) := by
  unfold State.modSlice
  try dsimp only
  repeat' first
    | with_reducible assumption
    | with_reducible refine Drives.upd ?_ ?_
    | with_reducible rfl

theorem State.modValve_still (h : Drives z s) (v : Fin 8) (f : Valve → Valve) : Drives z (State.modValve s v f) := by
  unfold State.modValve
  try dsimp only
  repeat' first
    | with_reducible assumption
    | with_reducible refine Drives.upd ?_ ?_
    | with_reducible rfl

theorem State.modX_still (h : Drives z s) (c : Fin 40) (f : XChan → XChan) : Drives z (State.modX s c f) := by
  unfold State.modX
  try dsimp only
  repeat' first
    | with_reducible assumption
    | with_reducible refine Drives.upd ?_ ?_
    | with_reducible rfl

theorem State.modLoop_still (h : Drives z s) (l : Fin 8) (f : Loop → Loop) : Drives z (State.modLoop s l f) := by
  unfold State.modLoop
  try dsimp only
  repeat' first
    | with_reducible assumption
    | with_reducible refine Drives.upd ?_ ?_
    | with_reducible rfl

theorem State.modTrace_still (h : Drives z s) (b : Fin 4) (f : Trace → Trace) : Drives z (State.modTrace s b f) := by
  unfold State.modTrace
  try dsimp only
  repeat' first
    | with_reducible assumption
    | with_reducible refine Drives.upd ?_ ?_
    | with_reducible rfl

theorem State.modPair_still (h : Drives z s) (p : Fin 4) (f : Pair → Pair) : Drives z (State.modPair s p f) := by
  unfold State.modPair
  try dsimp only
  repeat' first
    | with_reducible assumption
    | with_reducible refine Drives.upd ?_ ?_
    | with_reducible rfl

theorem State.modFin_still (h : Drives z s) (n : Fin 8) (f : FinState → FinState) : Drives z (State.modFin s n f) := by
  unfold State.modFin
  try dsimp only
  repeat' first
    | with_reducible assumption
    | with_reducible refine Drives.upd ?_ ?_
    | with_reducible rfl

theorem State.modEnc_still (h : Drives z s) (p : Fin 4) (f : EncState → EncState) : Drives z (State.modEnc s p f) := by
  unfold State.modEnc
  try dsimp only
  repeat' first
    | with_reducible assumption
    | with_reducible refine Drives.upd ?_ ?_
    | with_reducible rfl


/-! ### Machine/Bridge.lean -/

theorem State.modBridge_still (h : Drives z s) (v : Fin 8) (f : Valve → Valve) : Drives z (State.modBridge s v f) := by
  unfold State.modBridge
  try dsimp only
  repeat' first
    | with_reducible assumption
    | with_reducible apply State.modValve_still
    | with_reducible apply Drives.ite

theorem State.endPeriodGates_still (h : Drives z s) (v : Fin 8) (tick : Nat) : Drives z (State.endPeriodGates s v tick) := by
  unfold State.endPeriodGates
  try dsimp only
  repeat' first
    | with_reducible assumption
    | with_reducible apply State.modValve_still
    | with_reducible apply Drives.ite


/-! ### Machine/Drive.lean -/

theorem State.solDiag_still (h : Drives z s) (c : Fin 32) (k : Nat) : Drives z (State.solDiag s c k) := by
  unfold State.solDiag
  try dsimp only
  repeat' first
    | with_reducible assumption
    | with_reducible apply State.modSol_still
    | with_reducible apply State.record_still
    | with_reducible apply State.notice_still

theorem State.dequeue_still (h : Drives z s) (c : Fin 32) : Drives z (State.dequeue s c) := by
  unfold State.dequeue
  try dsimp only
  repeat' first
    | with_reducible assumption
    | with_reducible apply State.modBank_still

theorem State.releaseArbiter_still (h : Drives z s) (c : Fin 32) : Drives z (State.releaseArbiter s c) := by
  unfold State.releaseArbiter
  try dsimp only
  repeat' first
    | with_reducible assumption
    | with_reducible apply State.modBank_still

theorem State.requestBoost_still (h : Drives z s) (c : Fin 32) (teach : Bool) : Drives z (State.requestBoost s c teach) := by
  unfold State.requestBoost
  try dsimp only
  repeat' first
    | with_reducible assumption
    | with_reducible apply State.modSol_still
    | with_reducible apply State.modBank_still

theorem State.onDemand_still (h : Drives z s) (c : Fin 32) : Drives z (State.onDemand s c) := by
  unfold State.onDemand
  try dsimp only
  repeat' first
    | with_reducible assumption
    | with_reducible apply State.requestBoost_still
    | with_reducible apply State.modSol_still
    | with_reducible apply State.solDiag_still
    | split

theorem State.startOff_still (h : Drives z s) (c : Fin 32) (d : Decay) : Drives z (State.startOff s c d) := by
  unfold State.startOff
  try dsimp only
  repeat' first
    | with_reducible assumption
    | with_reducible apply State.modSol_still

theorem State.offDemand_still (h : Drives z s) (c : Fin 32) (fast : Bool) : Drives z (State.offDemand s c fast) := by
  unfold State.offDemand
  try dsimp only
  repeat' first
    | with_reducible assumption
    | with_reducible apply State.dequeue_still
    | with_reducible apply State.modSol_still
    | with_reducible apply State.releaseArbiter_still
    | with_reducible apply State.startOff_still
    | split

theorem State.startInterval_still (h : Drives z s) (c : Fin 32) (f : Nat) (p : Nat) (d : Frac) :
    Drives z (State.startInterval s c f p d) := by
  unfold State.startInterval
  try dsimp only
  repeat' first
    | with_reducible assumption
    | with_reducible apply State.modSol_still
    | with_reducible apply State.solDiag_still
    | with_reducible apply Drives.ite

theorem State.applySol_still (h : Drives z s) (c : Fin 32) : Drives z (State.applySol s c) := by
  unfold State.applySol
  try dsimp only
  repeat' first
    | with_reducible assumption
    | with_reducible apply State.modSol_still
    | with_reducible apply State.offDemand_still
    | with_reducible apply State.onDemand_still
    | with_reducible apply State.startInterval_still
    | split

theorem State.tellEnd_still (h : Drives z s) (c : Fin 40) (k : Current) (e : Nat) (cause : EndCause) :
    Drives z (State.tellEnd s c k e cause) := by
  unfold State.tellEnd
  try dsimp only
  repeat' first
    | with_reducible assumption
    | with_reducible apply State.record_still
    | with_reducible apply State.notice_still
    | with_reducible apply Drives.ite
    | with_reducible refine Drives.upd ?_ ?_
    | with_reducible rfl

theorem State.endDecided_still (h : Drives z s) (c : Fin 40) (k : Current) (cause : EndCause) :
    Drives z (State.endDecided s c k cause) := by
  unfold State.endDecided
  try dsimp only
  repeat' first
    | with_reducible assumption
    | with_reducible apply State.modX_still
    | with_reducible apply State.tellEnd_still

theorem State.endCast_still (h : Drives z s) (c : Fin 40) (cause : EndCause) : Drives z (State.endCast s c cause) := by
  unfold State.endCast
  try dsimp only
  repeat' first
    | with_reducible assumption
    | with_reducible apply State.modX_still
    | with_reducible apply State.tellEnd_still
    | split

theorem State.endCrossing_still (h : Drives z s) (c : Fin 40) (cause : EndCause) : Drives z (State.endCrossing s c cause) := by
  unfold State.endCrossing
  try dsimp only
  repeat' first
    | with_reducible assumption
    | intro _
    | with_reducible apply State.endDecided_still
    | with_reducible apply State.endCast_still
    | with_reducible apply Drives.foldl

theorem State.endAll_still (h : Drives z s) (cause : EndCause) : Drives z (State.endAll s cause) := by
  unfold State.endAll
  try dsimp only
  repeat' first
    | with_reducible assumption
    | intro _
    | with_reducible apply State.endCrossing_still
    | with_reducible apply Drives.foldl

theorem State.closeLevels_still (h : Drives z s) : Drives z (State.closeLevels s) := by
  unfold State.closeLevels
  try dsimp only
  repeat' first
    | with_reducible assumption
    | with_reducible refine Drives.upd ?_ ?_
    | with_reducible rfl

theorem State.recordValveEnd_still (h : Drives z s) (v : Fin 8) (why : RunWhy) (how : Nat) :
    Drives z (State.recordValveEnd s v why how) := by
  unfold State.recordValveEnd
  try dsimp only
  repeat' first
    | with_reducible assumption
    | with_reducible apply State.record_still
    | split

theorem State.arrive_still (h : Drives z s) (v : Fin 8) : Drives z (State.arrive s v) := by
  unfold State.arrive
  try dsimp only
  repeat' first
    | with_reducible assumption
    | with_reducible apply State.modBridge_still
    | with_reducible apply State.recordValveEnd_still
    | split

theorem State.spoilHandover_still (h : Drives z s) (v : Fin 8) : Drives z (State.spoilHandover s v) := by
  unfold State.spoilHandover
  try dsimp only
  repeat' first
    | with_reducible assumption
    | with_reducible refine Drives.upd ?_ ?_
    | with_reducible rfl

theorem State.limitFault_still (h : Drives z s) (v : Fin 8) (k : Nat) : Drives z (State.limitFault s v k) := by
  unfold State.limitFault
  try dsimp only
  repeat' first
    | with_reducible assumption
    | with_reducible apply State.modBridge_still
    | with_reducible apply State.record_still
    | with_reducible apply State.notice_still
    | with_reducible apply State.pwrEvt_still
    | with_reducible apply State.recordValveEnd_still
    | with_reducible apply State.spoilHandover_still
    | with_reducible apply State.endCrossing_still
    | split

theorem State.openFirst_still (h : Drives z s) (v : Fin 8) : Drives z (State.openFirst s v) := by
  unfold State.openFirst
  try dsimp only
  repeat' first
    | with_reducible assumption
    | with_reducible apply State.modValve_still

theorem State.startRun_still (h : Drives z s) (v : Fin 8) (e : ValveEnd) (why : RunWhy) :
    Drives z (State.startRun s v e why) := by
  unfold State.startRun
  try dsimp only
  repeat' first
    | with_reducible assumption
    | with_reducible apply State.limitFault_still
    | with_reducible apply State.spoilHandover_still
    | with_reducible apply State.modBridge_still
    | with_reducible apply State.recordValveEnd_still
    | with_reducible apply State.openFirst_still
    | with_reducible apply Drives.ite

theorem State.positionAim_still (h : Drives z s) (v : Fin 8) : Drives z (State.positionAim s v) := by
  unfold State.positionAim
  try dsimp only
  repeat' first
    | with_reducible assumption
    | with_reducible apply State.startRun_still
    | split

theorem State.takeDemand_still (h : Drives z s) (v : Fin 8) (d : ValveDemand) : Drives z (State.takeDemand s v d) := by
  unfold State.takeDemand
  try dsimp only
  repeat' first
    | with_reducible assumption
    | with_reducible apply State.modValve_still
    | with_reducible apply State.modBridge_still
    | with_reducible apply State.openFirst_still
    | with_reducible apply State.startRun_still
    | with_reducible apply State.positionAim_still
    | split

theorem State.applyValve_still (h : Drives z s) (v : Fin 8) : Drives z (State.applyValve s v) := by
  unfold State.applyValve
  try dsimp only
  repeat' first
    | with_reducible assumption
    | with_reducible apply State.takeDemand_still
    | with_reducible apply Drives.ite

theorem State.solFault_still (h : Drives z s) (c : Fin 32) (k : Nat) : Drives z (State.solFault s c k) := by
  unfold State.solFault
  try dsimp only
  repeat' first
    | with_reducible assumption
    | with_reducible apply State.modSol_still
    | with_reducible apply State.endCrossing_still

theorem State.missLanding_still (h : Drives z s) (c : Fin 32) : Drives z (State.missLanding s c) := by
  unfold State.missLanding
  try dsimp only
  repeat' first
    | with_reducible assumption
    | with_reducible apply State.modX_still

theorem State.closeWindow_still (h : Drives z s) (c : Fin 32) : Drives z (State.closeWindow s c) := by
  unfold State.closeWindow
  try dsimp only
  repeat' first
    | with_reducible assumption
    | with_reducible apply State.modSol_still
    | with_reducible apply State.missLanding_still
    | with_reducible apply State.solDiag_still
    | with_reducible apply State.solFault_still
    | with_reducible apply Drives.ite

theorem State.endPeak_still (h : Drives z s) (c : Fin 32) : Drives z (State.endPeak s c) := by
  unfold State.endPeak
  try dsimp only
  repeat' first
    | with_reducible assumption
    | with_reducible apply State.modSol_still
    | with_reducible apply State.closeWindow_still

theorem State.startPeak_still (h : Drives z s) (c : Fin 32) : Drives z (State.startPeak s c) := by
  unfold State.startPeak
  try dsimp only
  repeat' first
    | with_reducible assumption
    | with_reducible apply State.modSol_still
    | with_reducible apply State.endPeak_still
    | split

theorem State.endBoost_still (h : Drives z s) (c : Fin 32) : Drives z (State.endBoost s c) := by
  unfold State.endBoost
  try dsimp only
  repeat' first
    | with_reducible assumption
    | with_reducible apply State.releaseArbiter_still
    | with_reducible apply State.startPeak_still

theorem State.killBanks_still (h : Drives z s) : Drives z (State.killBanks s) := by
  unfold State.killBanks
  try dsimp only
  repeat' first
    | with_reducible assumption
    | intro _
    | with_reducible apply State.modSol_still
    | with_reducible apply State.modBank_still
    | with_reducible apply State.endBoost_still
    | with_reducible apply Drives.foldl
    | split

theorem State.applySlice_still (h : Drives z s) (i : Fin 12) : Drives z (State.applySlice s i) := by
  unfold State.applySlice
  try dsimp only
  repeat' first
    | with_reducible assumption
    | intro _
    | with_reducible apply State.modSlice_still
    | with_reducible apply State.modValve_still
    | with_reducible apply State.openFirst_still
    | with_reducible apply Drives.foldl
    | with_reducible apply Drives.ite

theorem State.applyBoost_still (h : Drives z s) : Drives z (State.applyBoost s) := by
  unfold State.applyBoost
  try dsimp only
  repeat' first
    | with_reducible assumption
    | with_reducible apply State.modBoost_still

theorem State.boostUnready_still (h : Drives z s) : Drives z (State.boostUnready s) := by
  unfold State.boostUnready
  try dsimp only
  repeat' first
    | with_reducible assumption
    | intro _
    | with_reducible apply State.modSol_still
    | with_reducible apply State.solDiag_still
    | with_reducible apply Drives.foldl
    | with_reducible apply Drives.ite

theorem State.finishHandover_still (h : Drives z s) : Drives z (State.finishHandover s) := by
  unfold State.finishHandover
  try dsimp only
  repeat' first
    | with_reducible assumption
    | with_reducible apply State.markStale_still
    | with_reducible apply State.closeLevels_still
    | with_reducible apply State.enter_still
    | split
    | with_reducible refine Drives.upd ?_ ?_
    | with_reducible rfl

theorem State.finishLimit_still (h : Drives z s) : Drives z (State.finishLimit s) := by
  unfold State.finishLimit
  try dsimp only
  repeat' first
    | with_reducible assumption
    | with_reducible apply State.markStale_still
    | with_reducible apply State.closeLevels_still
    | with_reducible apply State.enter_still
    | with_reducible apply Drives.ite
    | with_reducible refine Drives.upd ?_ ?_
    | with_reducible rfl

theorem State.applyAll_still (h : Drives z s) : Drives z (State.applyAll s) := by
  unfold State.applyAll
  try dsimp only
  repeat' first
    | with_reducible assumption
    | intro _
    | with_reducible apply State.applySlice_still
    | with_reducible apply State.applyBoost_still
    | with_reducible apply State.applySol_still
    | with_reducible apply State.boostUnready_still
    | with_reducible apply State.applyValve_still
    | with_reducible apply Drives.foldl
    | with_reducible apply Drives.ite

theorem State.refresh_still (h : Drives z s) : Drives z (State.refresh s) := by
  unfold State.refresh
  try dsimp only
  repeat' first
    | with_reducible assumption
    | with_reducible apply State.applyAll_still
    | with_reducible apply State.finishHandover_still
    | with_reducible apply State.finishLimit_still
    | with_reducible apply Drives.ite


/-! ### Machine/Clocks.lean -/

theorem State.shiftSchedules_still (h : Drives z s) (d : Int) : Drives z (State.shiftSchedules s d) := by
  unfold State.shiftSchedules
  try dsimp only
  repeat' first
    | with_reducible assumption
    | with_reducible refine Drives.upd ?_ ?_
    | with_reducible rfl

theorem State.forgetMarks_still (h : Drives z s) : Drives z (State.forgetMarks s) := by
  unfold State.forgetMarks
  try dsimp only
  repeat' first
    | with_reducible assumption
    | with_reducible refine Drives.upd ?_ ?_
    | with_reducible rfl


/-! ### Machine/Motion.lean -/

theorem State.modMotion_still (h : Drives z s) (f : Motion → Motion) : Drives z (State.modMotion s f) := by
  unfold State.modMotion
  try dsimp only
  repeat' first
    | with_reducible assumption
    | with_reducible refine Drives.upd ?_ ?_
    | with_reducible rfl

theorem State.setDir_still (h : Drives z s) (rev : Bool) : Drives z (State.setDir s rev) := by
  unfold State.setDir
  try dsimp only
  repeat' first
    | with_reducible assumption
    | with_reducible apply State.modMotion_still
    | with_reducible apply State.odoEvt_still
    | with_reducible apply State.record_still
    | with_reducible apply State.notice_still
    | with_reducible apply Drives.ite

theorem State.trackDir_still (h : Drives z s) : Drives z (State.trackDir s) := by
  unfold State.trackDir
  try dsimp only
  repeat' first
    | with_reducible assumption
    | with_reducible apply State.modMotion_still
    | with_reducible apply State.setDir_still
    | with_reducible apply Drives.ite

theorem State.followDir_still (h : Drives z s) : Drives z (State.followDir s) := by
  unfold State.followDir
  try dsimp only
  repeat' first
    | with_reducible assumption
    | with_reducible apply State.setDir_still
    | split

theorem State.moveOdo_still (h : Drives z s) (d : Int) : Drives z (State.moveOdo s d) := by
  unfold State.moveOdo
  try dsimp only
  repeat' first
    | with_reducible assumption
    | with_reducible apply State.modMotion_still
    | with_reducible apply State.odoEvt_still
    | with_reducible apply State.record_still
    | with_reducible apply State.trackDir_still
    | with_reducible apply Drives.ite

theorem State.latchPair_still (h : Drives z s) (stamp : ChainTime) : Drives z (State.latchPair s stamp) := by
  unfold State.latchPair
  try dsimp only
  repeat' first
    | with_reducible assumption
    | with_reducible apply State.modMotion_still

theorem State.sourceStep_still (h : Drives z s) (d : Int) (stamp : ChainTime) : Drives z (State.sourceStep s d stamp) := by
  unfold State.sourceStep
  try dsimp only
  repeat' first
    | with_reducible assumption
    | with_reducible apply State.moveOdo_still
    | with_reducible apply State.latchPair_still
    | with_reducible apply Drives.ite

theorem State.quadEdge_still (h : Drives z s) (n : Fin 8) (stamp : ChainTime) (cycles : Nat) (both : Bool) :
    Drives z (State.quadEdge s n stamp cycles both) := by
  unfold State.quadEdge
  try dsimp only
  repeat' first
    | with_reducible assumption
    | with_reducible apply State.modFin_still
    | with_reducible apply State.modMotion_still
    | with_reducible apply State.sourceStep_still
    | with_reducible apply Drives.ite

theorem State.singleEdge_still (h : Drives z s) (n : Fin 8) (stamp : ChainTime) (cycles : Nat) :
    Drives z (State.singleEdge s n stamp cycles) := by
  unfold State.singleEdge
  try dsimp only
  repeat' first
    | with_reducible assumption
    | with_reducible apply State.modFin_still
    | with_reducible apply State.sourceStep_still
    | with_reducible apply Drives.ite

theorem State.failRead_still (h : Drives z s) (p : Fin 4) (cause : Nat) : Drives z (State.failRead s p cause) := by
  unfold State.failRead
  try dsimp only
  repeat' first
    | with_reducible assumption
    | with_reducible apply State.modEnc_still
    | with_reducible apply State.modMotion_still
    | with_reducible apply State.odoEvt_still
    | with_reducible apply State.record_still
    | with_reducible apply State.notice_still
    | with_reducible apply Drives.ite

theorem State.goodRead_still (h : Drives z s) (p : Fin 4) (word : Nat) : Drives z (State.goodRead s p word) := by
  unfold State.goodRead
  try dsimp only
  repeat' first
    | with_reducible assumption
    | with_reducible apply State.modEnc_still
    | with_reducible apply State.sourceStep_still
    | with_reducible apply Drives.ite

theorem State.estimates_still (h : Drives z s) : Drives z (State.estimates s) := by
  unfold State.estimates
  try dsimp only
  repeat' first
    | with_reducible assumption
    | with_reducible apply State.modMotion_still

theorem State.speedStep_still (h : Drives z s) : Drives z (State.speedStep s) := by
  unfold State.speedStep
  try dsimp only
  repeat' first
    | with_reducible assumption
    | with_reducible apply State.modMotion_still
    | with_reducible apply State.moveOdo_still
    | with_reducible apply Drives.ite

theorem State.takeSpeed_still (h : Drives z s) (v : Int) (w : Int) : Drives z (State.takeSpeed s v w) := by
  unfold State.takeSpeed
  try dsimp only
  repeat' first
    | with_reducible assumption
    | with_reducible apply State.modMotion_still
    | with_reducible apply State.latchPair_still
    | with_reducible apply State.followDir_still
    | with_reducible apply Drives.ite

theorem State.switchSource_still (h : Drives z s) : Drives z (State.switchSource s) := by
  unfold State.switchSource
  try dsimp only
  repeat' first
    | with_reducible assumption
    | with_reducible apply State.modMotion_still
    | with_reducible apply State.followDir_still
    | with_reducible apply Drives.ite


/-! ### Machine/Crossings.lean -/

theorem State.popHead_still (h : Drives z s) (c : Fin 40) : Drives z (State.popHead s c) := by
  unfold State.popHead
  try dsimp only
  repeat' first
    | with_reducible assumption
    | with_reducible apply State.modX_still

theorem State.missHead_still (h : Drives z s) (c : Fin 40) (x : Crossing) (d : Int) : Drives z (State.missHead s c x d) := by
  unfold State.missHead
  try dsimp only
  repeat' first
    | with_reducible assumption
    | with_reducible apply State.popHead_still
    | with_reducible apply State.record_still
    | with_reducible apply State.notice_still
    | with_reducible refine Drives.upd ?_ ?_
    | with_reducible rfl

theorem State.holdHead_still (h : Drives z s) (c : Fin 40) (x : Crossing) : Drives z (State.holdHead s c x) := by
  unfold State.holdHead
  try dsimp only
  repeat' first
    | with_reducible assumption
    | with_reducible apply State.popHead_still
    | with_reducible apply State.modX_still
    | with_reducible apply State.record_still
    | with_reducible apply State.notice_still

theorem State.decideHead_still (h : Drives z s) (c : Fin 40) (x : Crossing) (ts : ChainTime) :
    Drives z (State.decideHead s c x ts) := by
  unfold State.decideHead
  try dsimp only
  repeat' first
    | with_reducible assumption
    | with_reducible apply State.modX_still

theorem State.castLate_still (h : Drives z s) (c : Fin 40) (x : Crossing) (late : Nat) :
    Drives z (State.castLate s c x late) := by
  unfold State.castLate
  try dsimp only
  repeat' first
    | with_reducible assumption
    | with_reducible apply State.record_still
    | with_reducible apply State.notice_still
    | with_reducible refine Drives.upd ?_ ?_
    | with_reducible rfl

theorem State.castBehind_still (h : Drives z s) (c : Fin 40) (x : Crossing) (d : Int) : Drives z (State.castBehind s c x d) := by
  unfold State.castBehind
  try dsimp only
  repeat' first
    | with_reducible assumption
    | with_reducible apply State.record_still
    | with_reducible apply State.notice_still
    | with_reducible refine Drives.upd ?_ ?_
    | with_reducible rfl

theorem State.lane_still (c : Fin 40) (fuel : Nat) : ∀ {s : State}, Drives z s → Drives z (State.lane s c fuel) := by
  induction fuel with
  | zero => exact fun h => h
  | succ n ih =>
    intro s h
    have hd (x : Crossing) (ts : ChainTime) : Drives z (s.decideHead c x ts) := State.decideHead_still h c x ts
    unfold State.lane
    split
    · exact h
    refine Drives.ite h ?_
    split
    · exact h
    · exact Drives.ite (ih (State.missHead_still h ..)) (Drives.ite (State.holdHead_still h ..) (State.castBehind_still (hd ..) ..))
    · split
      · exact h
      · exact Drives.ite h (Drives.ite (State.holdHead_still h ..) (Drives.ite (State.castLate_still (hd ..) ..) (hd ..)))

theorem State.turnAll_still (h : Drives z s) : Drives z (State.turnAll s) := by
  unfold State.turnAll
  try dsimp only
  repeat' first
    | with_reducible assumption
    | intro _
    | with_reducible apply State.modSol_still
    | with_reducible apply Drives.foldl

theorem State.countStranded_still (h : Drives z s) : Drives z (State.countStranded s) := by
  unfold State.countStranded
  try dsimp only
  repeat' first
    | with_reducible assumption
    | with_reducible apply Drives.ite
    | with_reducible refine Drives.upd ?_ ?_
    | with_reducible rfl

theorem State.startLimit_still (h : Drives z s) (time : Bool) : Drives z (State.startLimit s time) := by
  unfold State.startLimit
  try dsimp only
  repeat' first
    | with_reducible assumption
    | with_reducible apply State.staEvt_still
    | with_reducible apply State.record_still
    | with_reducible apply State.endAll_still
    | with_reducible apply State.refresh_still
    | with_reducible refine Drives.upd ?_ ?_
    | with_reducible rfl

theorem State.renewDemand_still (h : Drives z s) (c : Fin 32) : Drives z (State.renewDemand s c) := by
  unfold State.renewDemand
  try dsimp only
  repeat' first
    | with_reducible assumption
    | with_reducible apply State.modSol_still
    | split

theorem State.castOutput_still (h : Drives z s) (c : Fin 40) : Drives z (State.castOutput s c) := by
  unfold State.castOutput
  try dsimp only
  repeat' first
    | with_reducible assumption
    | with_reducible apply State.refresh_still
    | with_reducible apply State.startInterval_still
    | with_reducible apply State.renewDemand_still
    | with_reducible apply State.modValve_still
    | with_reducible apply State.startRun_still
    | split

theorem State.castKept_still (h : Drives z s) : Drives z (State.castKept s) := by
  unfold State.castKept
  try dsimp only
  repeat' first
    | with_reducible assumption
    | intro _
    | with_reducible apply State.modX_still
    | with_reducible apply State.castOutput_still
    | with_reducible apply Drives.foldl

theorem State.watchWork_still (h : Drives z s) : Drives z (State.watchWork s) := by
  have h1 : Drives z (if s.domainOn 101 then s.speedStep.estimates else s) :=
    Drives.ite (State.estimates_still (State.speedStep_still h)) h
  have h2 (t : State) (ht : Drives z t) : Drives z { t with engine := { t.engine with lastWatch := some t.time } } := ht.upd rfl
  have h2 := h2 _ h1
  have h3 := State.countStranded_still h2
  unfold State.watchWork
  refine Drives.ite h2 ?_
  dsimp only
  split
  · exact State.startLimit_still h3 _
  · refine Drives.ite h3 (Drives.foldl (fun t c ht => ?_) _ (State.castKept_still (State.turnAll_still h3)))
    exact Drives.ite (State.lane_still c _ ht) ht

theorem State.landCrossing_still (h : Drives z s) (c : Fin 40) (m : Nat) : Drives z (State.landCrossing s c m) := by
  unfold State.landCrossing
  try dsimp only
  repeat' first
    | with_reducible assumption
    | with_reducible apply State.modX_still
    | with_reducible apply State.notice_still
    | split

theorem State.castNow_still (h : Drives z s) (c : Fin 40) (k : Current) : Drives z (State.castNow s c k) := by
  unfold State.castNow
  try dsimp only
  repeat' first
    | with_reducible assumption
    | with_reducible apply State.modX_still
    | with_reducible apply State.notice_still
    | with_reducible apply State.modSol_still
    | with_reducible apply State.castOutput_still
    | with_reducible apply State.landCrossing_still
    | split

theorem State.learn_still (h : Drives z s) (c : Fin 32) (m : Nat) : Drives z (State.learn s c m) := by
  unfold State.learn
  try dsimp only
  repeat' first
    | with_reducible assumption
    | with_reducible apply State.modX_still
    | with_reducible apply State.xngEvt_still
    | with_reducible apply Drives.ite

theorem State.takeDip_still (h : Drives z s) (c : Fin 32) : Drives z (State.takeDip s c) := by
  unfold State.takeDip
  try dsimp only
  repeat' first
    | with_reducible assumption
    | with_reducible apply State.modSol_still
    | with_reducible apply State.modX_still
    | with_reducible apply State.learn_still
    | with_reducible apply State.landCrossing_still
    | with_reducible apply State.endPeak_still
    | split


/-! ### Machine/Banks.lean -/

theorem State.chop_still (h : Drives z s) (c : Fin 32) : Drives z (State.chop s c) := by
  unfold State.chop
  try dsimp only
  repeat' first
    | with_reducible assumption
    | with_reducible apply State.modSol_still

theorem State.startBoost_still (h : Drives z s) (c : Fin 32) (fromVbst : Bool) : Drives z (State.startBoost s c fromVbst) := by
  unfold State.startBoost
  try dsimp only
  repeat' first
    | with_reducible assumption
    | with_reducible apply State.modSol_still
    | with_reducible apply State.modBank_still
    | with_reducible apply State.chop_still

theorem State.bankDiag_still (h : Drives z s) (b : Fin 8) (k : Nat) (word : String) (data : Word) :
    Drives z (State.bankDiag s b k word data) := by
  unfold State.bankDiag
  try dsimp only
  repeat' first
    | with_reducible assumption
    | with_reducible apply State.modBank_still
    | with_reducible apply State.record_still
    | with_reducible apply State.notice_still

theorem State.boostDiag_still (h : Drives z s) (k : Nat) (word : String) (vbst : Nat) :
    Drives z (State.boostDiag s k word vbst) := by
  unfold State.boostDiag
  try dsimp only
  repeat' first
    | with_reducible assumption
    | with_reducible apply State.modBoost_still
    | with_reducible apply State.record_still
    | with_reducible apply State.notice_still

theorem State.boostNotReady_still (h : Drives z s) (b : Fin 8) (c : Fin 32) : Drives z (State.boostNotReady s b c) := by
  unfold State.boostNotReady
  try dsimp only
  repeat' first
    | with_reducible assumption
    | with_reducible apply State.solDiag_still
    | with_reducible apply State.bankDiag_still
    | with_reducible apply State.modSol_still
    | with_reducible apply State.modBank_still
    | with_reducible apply State.startBoost_still
    | with_reducible apply State.dequeue_still
    | with_reducible apply State.missLanding_still
    | split

theorem State.seeVbst_still (h : Drives z s) (vbst : Nat) : Drives z (State.seeVbst s vbst) := by
  unfold State.seeVbst
  try dsimp only
  repeat' first
    | with_reducible assumption
    | with_reducible apply State.modBoost_still

theorem State.gainReady_still (h : Drives z s) : Drives z (State.gainReady s) := by
  unfold State.gainReady
  try dsimp only
  repeat' first
    | with_reducible assumption
    | intro _
    | with_reducible apply State.startBoost_still
    | with_reducible apply State.modBoost_still
    | with_reducible apply Drives.foldl
    | with_reducible apply Drives.ite

theorem State.loseReady_still (h : Drives z s) (vbst : Nat) : Drives z (State.loseReady s vbst) := by
  unfold State.loseReady
  try dsimp only
  repeat' first
    | with_reducible assumption
    | with_reducible apply State.modBoost_still
    | with_reducible apply State.boostUnready_still
    | with_reducible apply State.boostDiag_still
    | with_reducible apply Drives.ite

theorem State.startOv_still (h : Drives z s) (vbst : Nat) : Drives z (State.startOv s vbst) := by
  unfold State.startOv
  try dsimp only
  repeat' first
    | with_reducible assumption
    | with_reducible apply State.modBoost_still
    | with_reducible apply State.boostDiag_still

theorem State.rejudgeVbst_still (h : Drives z s) : Drives z (State.rejudgeVbst s) := by
  unfold State.rejudgeVbst
  try dsimp only
  repeat' first
    | with_reducible assumption
    | with_reducible apply State.startOv_still
    | with_reducible apply State.seeVbst_still
    | with_reducible apply State.loseReady_still
    | with_reducible apply State.gainReady_still
    | with_reducible apply Drives.ite

theorem State.endInterval_still (h : Drives z s) (c : Fin 32) : Drives z (State.endInterval s c) := by
  unfold State.endInterval
  try dsimp only
  repeat' first
    | with_reducible assumption
    | with_reducible apply State.solDiag_still
    | with_reducible apply State.modSol_still
    | with_reducible apply State.offDemand_still
    | with_reducible apply Drives.ite

theorem State.bankFault_still (h : Drives z s) (b : Fin 8) : Drives z (State.bankFault s b) := by
  unfold State.bankFault
  try dsimp only
  repeat' first
    | with_reducible assumption
    | intro _
    | with_reducible apply State.solFault_still
    | with_reducible apply State.refresh_still
    | with_reducible apply Drives.foldl

theorem State.seeTemp_still (h : Drives z s) (b : Fin 8) (temp : Int) : Drives z (State.seeTemp s b temp) := by
  unfold State.seeTemp
  try dsimp only
  repeat' first
    | with_reducible assumption
    | with_reducible apply State.modBank_still
    | with_reducible apply State.bankDiag_still
    | with_reducible apply Drives.ite

theorem State.sampleCoil_still (h : Drives z s) (c : Fin 32) : Drives z (State.sampleCoil s c) := by
  unfold State.sampleCoil
  try dsimp only
  repeat' first
    | with_reducible assumption
    | with_reducible apply State.modSol_still
    | with_reducible apply Drives.ite

theorem State.sampleCoils_still (h : Drives z s) : Drives z (State.sampleCoils s) := by
  unfold State.sampleCoils
  try dsimp only
  repeat' first
    | with_reducible assumption
    | intro _
    | with_reducible apply State.sampleCoil_still
    | with_reducible apply Drives.foldl
    | with_reducible apply Drives.ite

theorem State.markBanks_still (h : Drives z s) : Drives z (State.markBanks s) := by
  unfold State.markBanks
  try dsimp only
  repeat' first
    | with_reducible assumption
    | with_reducible refine Drives.upd ?_ ?_
    | with_reducible rfl

theorem State.tickBoost_still (h : Drives z s) : Drives z (State.tickBoost s) := by
  unfold State.tickBoost
  try dsimp only
  repeat' first
    | with_reducible assumption
    | with_reducible apply State.modBoost_still

theorem State.compareCoils_still (h : Drives z s) : Drives z (State.compareCoils s) := by
  unfold State.compareCoils
  try dsimp only
  repeat' first
    | with_reducible assumption
    | with_reducible refine Drives.upd ?_ ?_
    | with_reducible rfl


/-! ### Machine/Valves.lean -/

theorem State.modPwm_still (h : Drives z s) (f : Pwm → Pwm) : Drives z (State.modPwm s f) := by
  unfold State.modPwm
  try dsimp only
  repeat' first
    | with_reducible assumption
    | with_reducible refine Drives.upd ?_ ?_
    | with_reducible rfl

theorem State.sendSync_still (h : Drives z s) (i : Fin 12) (tick : Nat) : Drives z (State.sendSync s i tick) := by
  unfold State.sendSync
  try dsimp only
  repeat' first
    | with_reducible assumption
    | with_reducible apply State.modSlice_still
    | split

theorem State.chargeBoots_still (h : Drives z s) (i : Fin 12) (tick : Nat) : Drives z (State.chargeBoots s i tick) := by
  unfold State.chargeBoots
  try dsimp only
  repeat' first
    | with_reducible assumption
    | intro _
    | with_reducible apply State.modValve_still
    | with_reducible apply Drives.foldl
    | with_reducible apply Drives.ite

theorem State.endGates_still (h : Drives z s) (i : Fin 12) (tick : Nat) : Drives z (State.endGates s i tick) := by
  unfold State.endGates
  try dsimp only
  repeat' first
    | with_reducible assumption
    | intro _
    | with_reducible apply State.endPeriodGates_still
    | with_reducible apply Drives.foldl
    | with_reducible apply Drives.ite

theorem State.formPeriod_still (h : Drives z s) (i : Fin 12) (tick : Nat) : Drives z (State.formPeriod s i tick) := by
  unfold State.formPeriod
  try dsimp only
  repeat' first
    | with_reducible assumption
    | with_reducible apply State.modSlice_still

theorem State.syncMiss_still (h : Drives z s) (i : Fin 12) : Drives z (State.syncMiss s i) := by
  unfold State.syncMiss
  try dsimp only
  repeat' first
    | with_reducible assumption
    | with_reducible apply State.modSlice_still
    | with_reducible apply State.modPwm_still
    | with_reducible apply State.record_still

theorem State.trip_still (h : Drives z s) (g : Fin 3) : Drives z (State.trip s g) := by
  unfold State.trip
  try dsimp only
  repeat' first
    | with_reducible assumption
    | intro _
    | with_reducible apply State.modPwm_still
    | with_reducible apply State.record_still
    | with_reducible apply State.notice_still
    | with_reducible apply State.endCrossing_still
    | with_reducible apply State.refresh_still
    | with_reducible apply Drives.foldl
    | with_reducible apply Drives.ite

theorem State.limitChange_still (h : Drives z s) (v : Fin 8) (e : ValveEnd) : Drives z (State.limitChange s v e) := by
  unfold State.limitChange
  try dsimp only
  repeat' first
    | with_reducible assumption
    | with_reducible apply State.limitFault_still
    | with_reducible apply State.refresh_still
    | with_reducible apply State.arrive_still
    | split

theorem State.movePos_still (h : Drives z s) (v : Fin 8) : Drives z (State.movePos s v) := by
  unfold State.movePos
  try dsimp only
  repeat' first
    | with_reducible assumption
    | with_reducible apply State.modValve_still
    | with_reducible apply Drives.ite

theorem State.positionStop_still (h : Drives z s) (v : Fin 8) : Drives z (State.positionStop s v) := by
  unfold State.positionStop
  try dsimp only
  repeat' first
    | with_reducible assumption
    | with_reducible apply State.modBridge_still
    | split

theorem State.positionAct_still (h : Drives z s) (v : Fin 8) : Drives z (State.positionAct s v) := by
  unfold State.positionAct
  try dsimp only
  repeat' first
    | with_reducible assumption
    | with_reducible apply State.positionStop_still
    | with_reducible apply State.positionAim_still
    | split


/-! ### Machine/Pilot.lean -/

theorem State.modPilot_still (h : Drives z s) (f : Pilot → Pilot) : Drives z (State.modPilot s f) := by
  unfold State.modPilot
  try dsimp only
  repeat' first
    | with_reducible assumption
    | with_reducible refine Drives.upd ?_ ?_
    | with_reducible rfl

theorem State.settleLoops_still (h : Drives z s) : Drives z (State.settleLoops s) := by
  unfold State.settleLoops
  try dsimp only
  repeat' first
    | with_reducible assumption
    | with_reducible apply State.modPilot_still

theorem State.writeOutput_still (h : Drives z s) (o : LoopOutput) : Drives z (State.writeOutput s o) := by
  unfold State.writeOutput
  try dsimp only
  repeat' first
    | with_reducible assumption
    | with_reducible apply State.modSlice_still
    | with_reducible apply State.modValve_still
    | with_reducible apply State.positionAct_still
    | with_reducible apply State.refresh_still
    | split

theorem State.oweTraces_still (h : Drives z s) (l : Fin 8) : Drives z (State.oweTraces s l) := by
  unfold State.oweTraces
  try dsimp only
  repeat' first
    | with_reducible assumption
    | with_reducible apply State.modPilot_still


/-! ### Machine/Ports.lean -/

theorem State.modChain_still (h : Drives z s) (f : Chain → Chain) : Drives z (State.modChain s f) := by
  unfold State.modChain
  try dsimp only
  repeat' first
    | with_reducible assumption
    | with_reducible refine Drives.upd ?_ ?_
    | with_reducible rfl

theorem State.insertUp_still (h : Drives z s) (w : WireItem) : Drives z (State.insertUp s w) := by
  unfold State.insertUp
  try dsimp only
  repeat' first
    | with_reducible assumption
    | with_reducible refine Drives.upd ?_ ?_
    | with_reducible rfl

theorem State.tideBad_still (h : Drives z s) : Drives z (State.tideBad s) := by
  unfold State.tideBad
  try dsimp only
  repeat' first
    | with_reducible assumption
    | with_reducible apply State.record_still
    | with_reducible apply State.notice_still

theorem State.judgeEchoes_still (h : Drives z s) : Drives z (State.judgeEchoes s) := by
  unfold State.judgeEchoes
  try dsimp only
  repeat' first
    | with_reducible assumption
    | with_reducible apply State.modChain_still

theorem State.takeEnum_still (h : Drives z s) (func : Nat) (count : Nat) (delay : Nat) (rate : Byte) :
    Drives z (State.takeEnum s func count delay rate) := by
  unfold State.takeEnum
  try dsimp only
  repeat' first
    | with_reducible assumption
    | with_reducible apply State.judgeEchoes_still
    | with_reducible apply State.modChain_still
    | with_reducible apply State.sendDn_still
    | with_reducible apply State.queueUp_still
    | with_reducible apply Drives.ite

theorem State.enumPass_still (h : Drives z s) (seq : SeqArrival) : Drives z (State.enumPass s seq) := by
  unfold State.enumPass
  try dsimp only
  repeat' first
    | with_reducible assumption
    | with_reducible apply State.sendDn_still
    | with_reducible apply State.seqError_still
    | with_reducible apply State.takeEnum_still
    | split

theorem State.enumTurned_still (h : Drives z s) : Drives z (State.enumTurned s) := by
  unfold State.enumTurned
  try dsimp only
  repeat' first
    | with_reducible assumption
    | with_reducible apply State.modChain_still

theorem State.sendTurn_still (h : Drives z s) (crc : Byte) (seq : Byte) : Drives z (State.sendTurn s crc seq) := by
  unfold State.sendTurn
  try dsimp only
  repeat' first
    | with_reducible assumption
    | with_reducible apply State.queueUp_still
    | with_reducible apply Drives.ite

theorem State.sendBack_still (h : Drives z s) (p : Port) (code : Byte) (e : Port) : Drives z (State.sendBack s p code e) := by
  unfold State.sendBack
  try dsimp only
  repeat' first
    | with_reducible assumption
    | with_reducible apply State.queueUp_still
    | with_reducible apply State.sendDn_still
    | with_reducible apply Drives.ite

theorem State.takeHelmq_still (h : Drives z s) (p : Port) (e : Port) (bytes : List Byte) :
    Drives z (State.takeHelmq s p e bytes) := by
  unfold State.takeHelmq
  try dsimp only
  repeat' first
    | with_reducible assumption
    | with_reducible apply State.forward_still
    | with_reducible apply State.modChain_still
    | with_reducible apply State.sendBack_still
    | with_reducible apply State.chnEvt_still
    | split


/-! ### Machine/Stops.lean -/

theorem State.modUnit_still (h : Drives z s) (f : UnitStatus → UnitStatus) : Drives z (State.modUnit s f) := by
  unfold State.modUnit
  try dsimp only
  repeat' first
    | with_reducible assumption
    | with_reducible refine Drives.upd ?_ ?_
    | with_reducible rfl

theorem State.killScope_still (h : Drives z s) (scope : Fin 40 → Bool) (cause : EndCause) :
    Drives z (State.killScope s scope cause) := by
  unfold State.killScope
  try dsimp only
  repeat' first
    | with_reducible assumption
    | intro _
    | with_reducible apply State.endCrossing_still
    | with_reducible apply State.modX_still
    | with_reducible apply State.killBanks_still
    | with_reducible apply State.refresh_still
    | with_reducible apply Drives.foldl
    | with_reducible apply Drives.ite

theorem State.dropLimit_still (h : Drives z s) : Drives z (State.dropLimit s) := by
  unfold State.dropLimit
  try dsimp only
  repeat' first
    | with_reducible assumption
    | with_reducible apply State.modUnit_still

theorem State.latchMoors_still (h : Drives z s) (cause : StateCause) : Drives z (State.latchMoors s cause) := by
  unfold State.latchMoors
  try dsimp only
  repeat' first
    | with_reducible assumption
    | with_reducible apply State.enter_still
    | with_reducible apply State.staEvt_still
    | with_reducible apply State.refresh_still
    | with_reducible apply Drives.ite

theorem State.latchKill_still (h : Drives z s) : Drives z (State.latchKill s) := by
  unfold State.latchKill
  try dsimp only
  repeat' first
    | with_reducible assumption
    | with_reducible apply State.modUnit_still
    | with_reducible apply State.dropLimit_still
    | with_reducible apply State.killScope_still
    | with_reducible apply State.closeLevels_still
    | with_reducible apply State.markStale_still
    | with_reducible apply State.latchMoors_still
    | with_reducible apply Drives.ite

theorem State.sfpEvt_still (h : Drives z s) (k : Nat) : Drives z (State.sfpEvt s k) := by
  unfold State.sfpEvt
  try dsimp only
  repeat' first
    | with_reducible assumption
    | with_reducible refine Drives.upd ?_ ?_
    | with_reducible rfl

theorem State.pairStops_still (h : Drives z s) (p : Fin 4) : Drives z (State.pairStops s p) := by
  unfold State.pairStops
  try dsimp only
  repeat' first
    | with_reducible assumption
    | with_reducible apply State.modPair_still
    | with_reducible apply State.sfpEvt_still
    | with_reducible apply State.record_still
    | with_reducible apply State.notice_still
    | with_reducible apply State.dropLimit_still
    | with_reducible apply State.killScope_still
    | with_reducible apply State.closeLevels_still
    | with_reducible apply State.markStale_still
    | with_reducible apply State.latchMoors_still
    | split

theorem State.pairRuns_still (h : Drives z s) (p : Fin 4) : Drives z (State.pairRuns s p) := by
  unfold State.pairRuns
  try dsimp only
  repeat' first
    | with_reducible assumption
    | with_reducible apply State.sfpEvt_still
    | with_reducible apply State.record_still
    | with_reducible apply State.notice_still
    | with_reducible apply State.refresh_still

theorem State.followReadings_still (h : Drives z s) (p : Fin 4) : Drives z (State.followReadings s p) := by
  unfold State.followReadings
  try dsimp only
  repeat' first
    | with_reducible assumption
    | with_reducible apply State.modPair_still

theorem State.startPair_still (h : Drives z s) (p : Fin 4) : Drives z (State.startPair s p) := by
  unfold State.startPair
  try dsimp only
  repeat' first
    | with_reducible assumption
    | with_reducible apply State.modPair_still
    | with_reducible apply State.followReadings_still
    | with_reducible apply State.pairStops_still
    | with_reducible apply Drives.ite

theorem State.settlePairs_still (h : Drives z s) : Drives z (State.settlePairs s) := by
  unfold State.settlePairs
  try dsimp only
  repeat' first
    | with_reducible assumption
    | intro _
    | with_reducible apply State.startPair_still
    | with_reducible apply State.modPair_still
    | with_reducible apply State.refresh_still
    | with_reducible apply Drives.foldl
    | with_reducible apply Drives.ite

theorem State.discrepSafe_still (h : Drives z s) : Drives z (State.discrepSafe s) := by
  unfold State.discrepSafe
  try dsimp only
  repeat' first
    | with_reducible assumption
    | with_reducible apply State.modUnit_still
    | with_reducible apply State.endAll_still
    | with_reducible apply State.closeLevels_still
    | with_reducible apply State.markStale_still
    | with_reducible apply State.enter_still
    | with_reducible apply State.refresh_still
    | with_reducible apply Drives.ite
    | split

theorem State.declareDiscrep_still (h : Drives z s) (p : Fin 4) : Drives z (State.declareDiscrep s p) := by
  unfold State.declareDiscrep
  try dsimp only
  repeat' first
    | with_reducible assumption
    | with_reducible apply State.modPair_still
    | with_reducible apply State.sfpEvt_still
    | with_reducible apply State.record_still
    | with_reducible apply State.notice_still
    | with_reducible apply State.dropLimit_still
    | with_reducible apply State.killScope_still
    | with_reducible apply State.discrepSafe_still
    | with_reducible apply Drives.ite


/-! ### Machine/Apply.lean -/

theorem State.modPower_still (h : Drives z s) (f : Power → Power) : Drives z (State.modPower s f) := by
  unfold State.modPower
  try dsimp only
  repeat' first
    | with_reducible assumption
    | with_reducible refine Drives.upd ?_ ?_
    | with_reducible rfl

theorem State.clearDomain_still (h : Drives z s) (d : Nat) : Drives z (State.clearDomain s d) := by
  have hx : Drives z { s with motion := s.motion.clear, engine := s.engine.clear } := h.upd rfl
  have hc : Drives z { s with manil := { s.manil with conLine := [], conBad := false, conTx := [] } } := h.upd rfl
  unfold State.clearDomain
  refine Drives.dite (fun _ => State.modSol_still (State.releaseArbiter_still (State.dequeue_still h _) _) ..) fun _ => ?_
  refine Drives.dite (fun _ => State.modBank_still h ..) fun _ => Drives.dite (fun _ => State.modValve_still h ..) fun _ => ?_
  refine Drives.dite (fun _ => State.modSlice_still h ..) fun _ => Drives.dite (fun _ => State.modEnc_still h ..) fun _ => ?_
  refine Drives.dite (fun _ => State.modFin_still h ..) fun _ => Drives.dite (fun _ => State.modPair_still h ..) fun _ => ?_
  refine Drives.dite (fun _ => State.modLoop_still h ..) fun _ => Drives.dite (fun _ => State.modTrace_still h ..) fun _ => ?_
  split
  · exact hx
  · exact State.modPort_still h ..
  · exact State.modPort_still h ..
  · exact hc
  · exact State.modBoost_still (Drives.ite (State.boostUnready_still h) h) _
  · exact State.modPilot_still h _
  · exact h

theorem State.domainOff_still (h : Drives z s) (d : Nat) : Drives z (State.domainOff s d) := by
  unfold State.domainOff
  try dsimp only
  repeat' first
    | with_reducible assumption
    | with_reducible apply State.modPower_still
    | with_reducible apply State.clearDomain_still
    | with_reducible apply State.modPwm_still
    | with_reducible apply State.record_still
    | with_reducible apply Drives.ite

theorem State.preset_still (h : Drives z s) (v : Word) : Drives z (State.preset s v) := by
  unfold State.preset
  try dsimp only
  repeat' first
    | with_reducible assumption
    | with_reducible apply State.modMotion_still
    | with_reducible apply State.markStale_still
    | with_reducible apply State.odoEvt_still
    | with_reducible apply State.record_still

theorem State.domainUp_still (h : Drives z s) (d : Nat) : Drives z (State.domainUp s d) := by
  unfold State.domainUp
  try dsimp only
  repeat' first
    | with_reducible assumption
    | intro _
    | with_reducible apply State.modPower_still
    | with_reducible apply State.modX_still
    | with_reducible apply State.modMotion_still
    | with_reducible apply State.preset_still
    | with_reducible apply State.followDir_still
    | with_reducible apply State.modEnc_still
    | with_reducible apply State.modSol_still
    | with_reducible apply Drives.foldl
    | split

theorem State.checkBoth_still (h : Drives z s) : Drives z (State.checkBoth s) := by
  unfold State.checkBoth
  try dsimp only
  repeat' first
    | with_reducible assumption
    | intro _
    | with_reducible apply State.limitFault_still
    | with_reducible apply Drives.foldl
    | with_reducible apply Drives.ite

theorem State.settleDomains_still (h : Drives z s) : Drives z (State.settleDomains s) := by
  unfold State.settleDomains
  try dsimp only
  repeat' first
    | with_reducible assumption
    | with_reducible apply State.settlePairs_still
    | with_reducible apply State.settleLoops_still
    | with_reducible apply State.checkBoth_still
    | with_reducible apply State.refresh_still

theorem State.switchDomains_still (h : Drives z s) : Drives z (State.switchDomains s) := by
  unfold State.switchDomains
  try dsimp only
  repeat' first
    | with_reducible assumption
    | intro _
    | with_reducible apply State.domainOff_still
    | with_reducible apply State.modPower_still
    | with_reducible apply State.settleDomains_still
    | with_reducible apply Drives.foldl

theorem State.switchAllOn_still (h : Drives z s) : Drives z (State.switchAllOn s) := by
  unfold State.switchAllOn
  try dsimp only
  repeat' first
    | with_reducible assumption
    | intro _
    | with_reducible apply State.domainUp_still
    | with_reducible apply State.modPower_still
    | with_reducible apply State.settleDomains_still
    | with_reducible apply Drives.foldl

theorem State.applyFins_still (h : Drives z s) (o : State) : Drives z (State.applyFins s o) := by
  unfold State.applyFins
  try dsimp only
  repeat' first
    | with_reducible assumption
    | intro _
    | with_reducible apply State.modFin_still
    | with_reducible apply Drives.foldl
    | with_reducible apply Drives.ite

theorem State.applyEncs_still (h : Drives z s) (o : State) : Drives z (State.applyEncs s o) := by
  unfold State.applyEncs
  try dsimp only
  repeat' first
    | with_reducible assumption
    | intro _
    | with_reducible apply State.modEnc_still
    | with_reducible apply Drives.foldl
    | with_reducible apply Drives.ite

theorem State.applyOdo_still (h : Drives z s) (o : State) (preset : Option Word) : Drives z (State.applyOdo s o preset) := by
  unfold State.applyOdo
  try dsimp only
  repeat' first
    | with_reducible assumption
    | with_reducible apply State.modMotion_still
    | with_reducible apply State.preset_still
    | with_reducible apply State.switchSource_still
    | with_reducible apply State.followDir_still
    | split

theorem State.applyLat_still (h : Drives z s) (o : State) (written : Nat → Bool) : Drives z (State.applyLat s o written) := by
  unfold State.applyLat
  try dsimp only
  repeat' first
    | with_reducible assumption
    | intro _
    | with_reducible apply State.modX_still
    | with_reducible apply State.modValve_still
    | with_reducible apply Drives.foldl
    | with_reducible apply Drives.ite

theorem State.applyValves_still (h : Drives z s) (o : State) : Drives z (State.applyValves s o) := by
  unfold State.applyValves
  try dsimp only
  repeat' first
    | with_reducible assumption
    | intro _
    | with_reducible apply State.modValve_still
    | with_reducible apply Drives.foldl
    | with_reducible apply Drives.ite

theorem State.applyAin_still (h : Drives z s) (o : State) : Drives z (State.applyAin s o) := by
  unfold State.applyAin
  try dsimp only
  repeat' first
    | with_reducible assumption
    | with_reducible apply State.modPilot_still

theorem State.applyFlt_still (h : Drives z s) (o : State) : Drives z (State.applyFlt s o) := by
  unfold State.applyFlt
  try dsimp only
  repeat' first
    | with_reducible assumption
    | intro _
    | with_reducible apply State.trip_still
    | with_reducible apply Drives.foldl
    | with_reducible apply Drives.ite

theorem State.applyPairs_still (h : Drives z s) (o : State) : Drives z (State.applyPairs s o) := by
  unfold State.applyPairs
  try dsimp only
  repeat' first
    | with_reducible assumption
    | intro _
    | with_reducible apply State.startPair_still
    | with_reducible apply State.followReadings_still
    | with_reducible apply State.pairStops_still
    | with_reducible apply State.pairRuns_still
    | with_reducible apply State.killScope_still
    | with_reducible apply Drives.foldl
    | with_reducible apply Drives.ite

theorem State.vbatRises_still (h : Drives z s) (vbat : Nat) : Drives z (State.vbatRises s vbat) := by
  unfold State.vbatRises
  try dsimp only
  repeat' first
    | with_reducible assumption
    | with_reducible apply State.modPower_still
    | with_reducible apply State.pwrEvt_still
    | with_reducible apply State.refresh_still
    | with_reducible apply Drives.ite

theorem State.seeVhld_still (h : Drives z s) (vhld : Nat) : Drives z (State.seeVhld s vhld) := by
  unfold State.seeVhld
  try dsimp only
  repeat' first
    | with_reducible assumption
    | with_reducible apply State.modPower_still


/-! ### Machine/Log.lean -/

theorem State.modRec_still (h : Drives z s) (f : Recorder → Recorder) : Drives z (State.modRec s f) := by
  unfold State.modRec
  try dsimp only
  repeat' first
    | with_reducible assumption
    | with_reducible refine Drives.upd ?_ ?_
    | with_reducible rfl

theorem State.stepOptime_still (h : Drives z s) : Drives z (State.stepOptime s) := by
  unfold State.stepOptime
  try dsimp only
  repeat' first
    | with_reducible assumption
    | with_reducible apply State.modRec_still
    | with_reducible apply State.record_still
    | with_reducible apply Drives.ite

end Sys2Proof.Machine
end

