-- ==== Sys2Proof/Laws/State.lean ====
section
/-! SUPPORT. What the small operations leave: one lemma for each field of the state under each update, true by `rfl`, so that no
proof unfolds one; the same for records, notices and vectors; and a register read after a write. -/
namespace Sys2Proof.Machine

open Sys2Proof

/-! ### Vectors and flag words -/

/-- The element that an update changes. -/
@[simp] theorem upd_self {α : Type} {n : Nat} (v : Vector α n) (i : Fin n) (f : α → α) : (upd v i f)[i] = f v[i] := by simp [upd]

/-- Every other element stays. -/
theorem upd_other {α : Type} {n : Nat} (v : Vector α n) {i j : Fin n} (f : α → α) (h : j ≠ i) : (upd v i f)[j] = v[j] := by
  have : ¬(i.val = j.val) := fun e => h (Fin.ext e.symm)
  simp [upd, this]

/-- Two updates of one element are one. -/
@[simp] theorem upd_upd {α : Type} {n : Nat} (v : Vector α n) (i : Fin n) (f g : α → α) :
    upd (upd v i f) i g = upd v i fun x => g (f x) := by
  ext k hk
  simp [upd, Vector.getElem_set]

/-- An update to a value known beforehand. -/
theorem upd_const {α : Type} {n : Nat} (v : Vector α n) (i : Fin n) (f : α → α) : upd v i (fun _ => f v[i]) = upd v i f := by
  simp [upd]

/-- An update that changes nothing. -/
@[simp] theorem upd_id {α : Type} {n : Nat} (v : Vector α n) (i : Fin n) : upd v i (fun x => x) = v := by
  ext k hk
  simp [upd]

/-- A raised flag is 1. -/
theorem raise_self {n : Nat} (w : BitVec n) (k : Nat) (h : k < n) : (raise w k).getLsbD k = true := by
  simp only [raise, BitVec.getLsbD_or, Bool.or_eq_true]
  refine Or.inr ?_
  rw [BitVec.getLsbD, BitVec.toNat_ofNat, Nat.mod_eq_of_lt (Nat.pow_lt_pow_right (by omega) h)]
  simp

/-! ### The register file -/

namespace RegFile

/-- A file whose entries all lie above an address holds nothing at it. -/
theorem read_above {a : Nat} : ∀ {l : List (Nat × Word)}, (∀ x ∈ l, a < x.1) → read l a = resetValue a
  | [], _ => rfl
  | (b, v) :: l, h => by
    have hb : ¬(a = b) := Nat.ne_of_lt (h (b, v) (by simp))
    simp [read, hb, read_above fun x hx => h x (List.mem_cons_of_mem _ hx)]

/-- An entry inserted is read. -/
theorem read_insert (a : Nat) (v : Word) (c : Nat) : ∀ l : List (Nat × Word), read (insert l a v) c = if c = a then v else read l c
  | [] => by simp [insert, read]
  | (b, w) :: l => by
    unfold insert
    split
    · simp [read]
    split
    · next h => subst h; by_cases hc : c = a <;> simp [read, hc]
    · next h1 h2 =>
      by_cases hb : c = b
      · have : ¬(c = a) := fun e => h2 (e ▸ hb ▸ rfl)
        simp [read, hb, show ¬(b = a) from fun e => h2 e.symm]
      · simp [read, hb, read_insert a v c l]

/-- An entry removed from a file in its one form reads as after reset; every other stays. -/
theorem read_remove (a : Nat) (c : Nat) : ∀ l : List (Nat × Word), wf l = true → read (remove l a) c = if c = a then resetValue a else read l c
  | [], _ => by
    by_cases h : c = a <;> simp [remove, read, h]
  | (b, w) :: l, h => by
    unfold remove
    split
    · next hb =>
      subst hb
      by_cases hc : c = a
      · subst hc; simp [read_above (wf_above h)]
      · simp [read, hc]
    · next hb =>
      by_cases hc : c = b
      · have : ¬(c = a) := fun e => hb (e ▸ hc)
        simp [read, hc, show ¬(b = a) from fun e => hb e.symm]
      · simp [read, hc, read_remove a c l (wf_tail h)]

/-- A write is read at its address, and nowhere else. -/
theorem read_write {l : List (Nat × Word)} (h : wf l = true) (a : Nat) (v : Word) (c : Nat) :
    read (write l a v) c = if c = a then v else read l c := by
  unfold write
  split
  · next hv => rw [read_remove a c l h, hv]
  · exact read_insert a v c l

end RegFile

/-- A register written is read at its address, and nowhere else. -/
theorem State.reg_setReg {s : State} (h : RegFile.wf s.regs = true) (a : Nat) (v : Word) (c : Nat) :
    (s.setReg a v).reg c = if c = a then v else s.reg c := RegFile.read_write h a v c

/-! ### Notices -/

/-- A notice is queued or dropped, and may be shown on the console: nothing else changes. -/
theorem State.notice_only (s : State) (text : List Tok) : s.notice text =
    { s with chain := (s.notice text).chain, manil := { s.manil with conTx := (s.notice text).manil.conTx } } := by
  unfold State.notice State.conLineOut State.conSend State.queueUp
  simp only
  split <;> split <;> (try split) <;> (try split) <;> (try split) <;> rfl
@[simp] theorem State.notice_phase (s : State) (text : List Tok) : (s.notice text).phase = s.phase := by rw [s.notice_only text]
@[simp] theorem State.notice_regs (s : State) (text : List Tok) : (s.notice text).regs = s.regs := by rw [s.notice_only text]
@[simp] theorem State.notice_time (s : State) (text : List Tok) : (s.notice text).time = s.time := by rw [s.notice_only text]
@[simp] theorem State.notice_clk (s : State) (text : List Tok) : (s.notice text).clk = s.clk := by rw [s.notice_only text]
@[simp] theorem State.notice_cd08 (s : State) (text : List Tok) : (s.notice text).cd08 = s.cd08 := by rw [s.notice_only text]
@[simp] theorem State.notice_clocks (s : State) (text : List Tok) : (s.notice text).clocks = s.clocks := by rw [s.notice_only text]
@[simp] theorem State.notice_spread (s : State) (text : List Tok) : (s.notice text).spread = s.spread := by rw [s.notice_only text]
@[simp] theorem State.notice_ckout (s : State) (text : List Tok) : (s.notice text).ckout = s.ckout := by rw [s.notice_only text]
@[simp] theorem State.notice_power (s : State) (text : List Tok) : (s.notice text).power = s.power := by rw [s.notice_only text]
@[simp] theorem State.notice_rst (s : State) (text : List Tok) : (s.notice text).rst = s.rst := by rw [s.notice_only text]
@[simp] theorem State.notice_boot (s : State) (text : List Tok) : (s.notice text).boot = s.boot := by rw [s.notice_only text]
@[simp] theorem State.notice_unit (s : State) (text : List Tok) : (s.notice text).unit = s.unit := by rw [s.notice_only text]
@[simp] theorem State.notice_motion (s : State) (text : List Tok) : (s.notice text).motion = s.motion := by rw [s.notice_only text]
@[simp] theorem State.notice_engine (s : State) (text : List Tok) : (s.notice text).engine = s.engine := by rw [s.notice_only text]
@[simp] theorem State.notice_sol (s : State) (text : List Tok) : (s.notice text).sol = s.sol := by rw [s.notice_only text]
@[simp] theorem State.notice_pwm (s : State) (text : List Tok) : (s.notice text).pwm = s.pwm := by rw [s.notice_only text]
@[simp] theorem State.notice_pilot (s : State) (text : List Tok) : (s.notice text).pilot = s.pilot := by rw [s.notice_only text]
@[simp] theorem State.notice_safety (s : State) (text : List Tok) : (s.notice text).safety = s.safety := by rw [s.notice_only text]
@[simp] theorem State.notice_recorder (s : State) (text : List Tok) : (s.notice text).recorder = s.recorder := by rw [s.notice_only text]
@[simp] theorem State.notice_owner (s : State) (text : List Tok) : (s.notice text).owner = s.owner := by rw [s.notice_only text]
@[simp] theorem State.notice_cal (s : State) (text : List Tok) : (s.notice text).cal = s.cal := by rw [s.notice_only text]
@[simp] theorem State.notice_nvm (s : State) (text : List Tok) : (s.notice text).nvm = s.nvm := by rw [s.notice_only text]
@[simp] theorem State.notice_settle (s : State) (text : List Tok) : (s.notice text).settle = s.settle := by rw [s.notice_only text]
@[simp] theorem State.notice_pending (s : State) (text : List Tok) : (s.notice text).pending = s.pending := by rw [s.notice_only text]

/-! ### Updates of one part -/

/-! `modChain` -/

@[simp] theorem State.modChain_phase (s : State) (f : Chain → Chain) : (s.modChain f).phase = s.phase := rfl
@[simp] theorem State.modChain_regs (s : State) (f : Chain → Chain) : (s.modChain f).regs = s.regs := rfl
@[simp] theorem State.modChain_time (s : State) (f : Chain → Chain) : (s.modChain f).time = s.time := rfl
@[simp] theorem State.modChain_clk (s : State) (f : Chain → Chain) : (s.modChain f).clk = s.clk := rfl
@[simp] theorem State.modChain_cd08 (s : State) (f : Chain → Chain) : (s.modChain f).cd08 = s.cd08 := rfl
@[simp] theorem State.modChain_chain (s : State) (f : Chain → Chain) : (s.modChain f).chain = f s.chain := rfl
@[simp] theorem State.modChain_clocks (s : State) (f : Chain → Chain) : (s.modChain f).clocks = s.clocks := rfl
@[simp] theorem State.modChain_spread (s : State) (f : Chain → Chain) : (s.modChain f).spread = s.spread := rfl
@[simp] theorem State.modChain_ckout (s : State) (f : Chain → Chain) : (s.modChain f).ckout = s.ckout := rfl
@[simp] theorem State.modChain_power (s : State) (f : Chain → Chain) : (s.modChain f).power = s.power := rfl
@[simp] theorem State.modChain_rst (s : State) (f : Chain → Chain) : (s.modChain f).rst = s.rst := rfl
@[simp] theorem State.modChain_boot (s : State) (f : Chain → Chain) : (s.modChain f).boot = s.boot := rfl
@[simp] theorem State.modChain_unit (s : State) (f : Chain → Chain) : (s.modChain f).unit = s.unit := rfl
@[simp] theorem State.modChain_manil (s : State) (f : Chain → Chain) : (s.modChain f).manil = s.manil := rfl
@[simp] theorem State.modChain_motion (s : State) (f : Chain → Chain) : (s.modChain f).motion = s.motion := rfl
@[simp] theorem State.modChain_engine (s : State) (f : Chain → Chain) : (s.modChain f).engine = s.engine := rfl
@[simp] theorem State.modChain_sol (s : State) (f : Chain → Chain) : (s.modChain f).sol = s.sol := rfl
@[simp] theorem State.modChain_pwm (s : State) (f : Chain → Chain) : (s.modChain f).pwm = s.pwm := rfl
@[simp] theorem State.modChain_pilot (s : State) (f : Chain → Chain) : (s.modChain f).pilot = s.pilot := rfl
@[simp] theorem State.modChain_safety (s : State) (f : Chain → Chain) : (s.modChain f).safety = s.safety := rfl
@[simp] theorem State.modChain_recorder (s : State) (f : Chain → Chain) : (s.modChain f).recorder = s.recorder := rfl
@[simp] theorem State.modChain_owner (s : State) (f : Chain → Chain) : (s.modChain f).owner = s.owner := rfl
@[simp] theorem State.modChain_cal (s : State) (f : Chain → Chain) : (s.modChain f).cal = s.cal := rfl
@[simp] theorem State.modChain_nvm (s : State) (f : Chain → Chain) : (s.modChain f).nvm = s.nvm := rfl
@[simp] theorem State.modChain_settle (s : State) (f : Chain → Chain) : (s.modChain f).settle = s.settle := rfl
@[simp] theorem State.modChain_pending (s : State) (f : Chain → Chain) : (s.modChain f).pending = s.pending := rfl

/-! `modClk` -/

@[simp] theorem State.modClk_phase (s : State) (f : Clocks → Clocks) : (s.modClk f).phase = s.phase := rfl
@[simp] theorem State.modClk_regs (s : State) (f : Clocks → Clocks) : (s.modClk f).regs = s.regs := rfl
@[simp] theorem State.modClk_time (s : State) (f : Clocks → Clocks) : (s.modClk f).time = s.time := rfl
@[simp] theorem State.modClk_clk (s : State) (f : Clocks → Clocks) : (s.modClk f).clk = s.clk := rfl
@[simp] theorem State.modClk_cd08 (s : State) (f : Clocks → Clocks) : (s.modClk f).cd08 = s.cd08 := rfl
@[simp] theorem State.modClk_chain (s : State) (f : Clocks → Clocks) : (s.modClk f).chain = s.chain := rfl
@[simp] theorem State.modClk_clocks (s : State) (f : Clocks → Clocks) : (s.modClk f).clocks = f s.clocks := rfl
@[simp] theorem State.modClk_spread (s : State) (f : Clocks → Clocks) : (s.modClk f).spread = s.spread := rfl
@[simp] theorem State.modClk_ckout (s : State) (f : Clocks → Clocks) : (s.modClk f).ckout = s.ckout := rfl
@[simp] theorem State.modClk_power (s : State) (f : Clocks → Clocks) : (s.modClk f).power = s.power := rfl
@[simp] theorem State.modClk_rst (s : State) (f : Clocks → Clocks) : (s.modClk f).rst = s.rst := rfl
@[simp] theorem State.modClk_boot (s : State) (f : Clocks → Clocks) : (s.modClk f).boot = s.boot := rfl
@[simp] theorem State.modClk_unit (s : State) (f : Clocks → Clocks) : (s.modClk f).unit = s.unit := rfl
@[simp] theorem State.modClk_manil (s : State) (f : Clocks → Clocks) : (s.modClk f).manil = s.manil := rfl
@[simp] theorem State.modClk_motion (s : State) (f : Clocks → Clocks) : (s.modClk f).motion = s.motion := rfl
@[simp] theorem State.modClk_engine (s : State) (f : Clocks → Clocks) : (s.modClk f).engine = s.engine := rfl
@[simp] theorem State.modClk_sol (s : State) (f : Clocks → Clocks) : (s.modClk f).sol = s.sol := rfl
@[simp] theorem State.modClk_pwm (s : State) (f : Clocks → Clocks) : (s.modClk f).pwm = s.pwm := rfl
@[simp] theorem State.modClk_pilot (s : State) (f : Clocks → Clocks) : (s.modClk f).pilot = s.pilot := rfl
@[simp] theorem State.modClk_safety (s : State) (f : Clocks → Clocks) : (s.modClk f).safety = s.safety := rfl
@[simp] theorem State.modClk_recorder (s : State) (f : Clocks → Clocks) : (s.modClk f).recorder = s.recorder := rfl
@[simp] theorem State.modClk_owner (s : State) (f : Clocks → Clocks) : (s.modClk f).owner = s.owner := rfl
@[simp] theorem State.modClk_cal (s : State) (f : Clocks → Clocks) : (s.modClk f).cal = s.cal := rfl
@[simp] theorem State.modClk_nvm (s : State) (f : Clocks → Clocks) : (s.modClk f).nvm = s.nvm := rfl
@[simp] theorem State.modClk_settle (s : State) (f : Clocks → Clocks) : (s.modClk f).settle = s.settle := rfl
@[simp] theorem State.modClk_pending (s : State) (f : Clocks → Clocks) : (s.modClk f).pending = s.pending := rfl

/-! `modPower` -/

@[simp] theorem State.modPower_phase (s : State) (f : Power → Power) : (s.modPower f).phase = s.phase := rfl
@[simp] theorem State.modPower_regs (s : State) (f : Power → Power) : (s.modPower f).regs = s.regs := rfl
@[simp] theorem State.modPower_time (s : State) (f : Power → Power) : (s.modPower f).time = s.time := rfl
@[simp] theorem State.modPower_clk (s : State) (f : Power → Power) : (s.modPower f).clk = s.clk := rfl
@[simp] theorem State.modPower_cd08 (s : State) (f : Power → Power) : (s.modPower f).cd08 = s.cd08 := rfl
@[simp] theorem State.modPower_chain (s : State) (f : Power → Power) : (s.modPower f).chain = s.chain := rfl
@[simp] theorem State.modPower_clocks (s : State) (f : Power → Power) : (s.modPower f).clocks = s.clocks := rfl
@[simp] theorem State.modPower_spread (s : State) (f : Power → Power) : (s.modPower f).spread = s.spread := rfl
@[simp] theorem State.modPower_ckout (s : State) (f : Power → Power) : (s.modPower f).ckout = s.ckout := rfl
@[simp] theorem State.modPower_power (s : State) (f : Power → Power) : (s.modPower f).power = f s.power := rfl
@[simp] theorem State.modPower_rst (s : State) (f : Power → Power) : (s.modPower f).rst = s.rst := rfl
@[simp] theorem State.modPower_boot (s : State) (f : Power → Power) : (s.modPower f).boot = s.boot := rfl
@[simp] theorem State.modPower_unit (s : State) (f : Power → Power) : (s.modPower f).unit = s.unit := rfl
@[simp] theorem State.modPower_manil (s : State) (f : Power → Power) : (s.modPower f).manil = s.manil := rfl
@[simp] theorem State.modPower_motion (s : State) (f : Power → Power) : (s.modPower f).motion = s.motion := rfl
@[simp] theorem State.modPower_engine (s : State) (f : Power → Power) : (s.modPower f).engine = s.engine := rfl
@[simp] theorem State.modPower_sol (s : State) (f : Power → Power) : (s.modPower f).sol = s.sol := rfl
@[simp] theorem State.modPower_pwm (s : State) (f : Power → Power) : (s.modPower f).pwm = s.pwm := rfl
@[simp] theorem State.modPower_pilot (s : State) (f : Power → Power) : (s.modPower f).pilot = s.pilot := rfl
@[simp] theorem State.modPower_safety (s : State) (f : Power → Power) : (s.modPower f).safety = s.safety := rfl
@[simp] theorem State.modPower_recorder (s : State) (f : Power → Power) : (s.modPower f).recorder = s.recorder := rfl
@[simp] theorem State.modPower_owner (s : State) (f : Power → Power) : (s.modPower f).owner = s.owner := rfl
@[simp] theorem State.modPower_cal (s : State) (f : Power → Power) : (s.modPower f).cal = s.cal := rfl
@[simp] theorem State.modPower_nvm (s : State) (f : Power → Power) : (s.modPower f).nvm = s.nvm := rfl
@[simp] theorem State.modPower_settle (s : State) (f : Power → Power) : (s.modPower f).settle = s.settle := rfl
@[simp] theorem State.modPower_pending (s : State) (f : Power → Power) : (s.modPower f).pending = s.pending := rfl

/-! `modRst` -/

@[simp] theorem State.modRst_phase (s : State) (f : ResetCtl → ResetCtl) : (s.modRst f).phase = s.phase := rfl
@[simp] theorem State.modRst_regs (s : State) (f : ResetCtl → ResetCtl) : (s.modRst f).regs = s.regs := rfl
@[simp] theorem State.modRst_time (s : State) (f : ResetCtl → ResetCtl) : (s.modRst f).time = s.time := rfl
@[simp] theorem State.modRst_clk (s : State) (f : ResetCtl → ResetCtl) : (s.modRst f).clk = s.clk := rfl
@[simp] theorem State.modRst_cd08 (s : State) (f : ResetCtl → ResetCtl) : (s.modRst f).cd08 = s.cd08 := rfl
@[simp] theorem State.modRst_chain (s : State) (f : ResetCtl → ResetCtl) : (s.modRst f).chain = s.chain := rfl
@[simp] theorem State.modRst_clocks (s : State) (f : ResetCtl → ResetCtl) : (s.modRst f).clocks = s.clocks := rfl
@[simp] theorem State.modRst_spread (s : State) (f : ResetCtl → ResetCtl) : (s.modRst f).spread = s.spread := rfl
@[simp] theorem State.modRst_ckout (s : State) (f : ResetCtl → ResetCtl) : (s.modRst f).ckout = s.ckout := rfl
@[simp] theorem State.modRst_power (s : State) (f : ResetCtl → ResetCtl) : (s.modRst f).power = s.power := rfl
@[simp] theorem State.modRst_rst (s : State) (f : ResetCtl → ResetCtl) : (s.modRst f).rst = f s.rst := rfl
@[simp] theorem State.modRst_boot (s : State) (f : ResetCtl → ResetCtl) : (s.modRst f).boot = s.boot := rfl
@[simp] theorem State.modRst_unit (s : State) (f : ResetCtl → ResetCtl) : (s.modRst f).unit = s.unit := rfl
@[simp] theorem State.modRst_manil (s : State) (f : ResetCtl → ResetCtl) : (s.modRst f).manil = s.manil := rfl
@[simp] theorem State.modRst_motion (s : State) (f : ResetCtl → ResetCtl) : (s.modRst f).motion = s.motion := rfl
@[simp] theorem State.modRst_engine (s : State) (f : ResetCtl → ResetCtl) : (s.modRst f).engine = s.engine := rfl
@[simp] theorem State.modRst_sol (s : State) (f : ResetCtl → ResetCtl) : (s.modRst f).sol = s.sol := rfl
@[simp] theorem State.modRst_pwm (s : State) (f : ResetCtl → ResetCtl) : (s.modRst f).pwm = s.pwm := rfl
@[simp] theorem State.modRst_pilot (s : State) (f : ResetCtl → ResetCtl) : (s.modRst f).pilot = s.pilot := rfl
@[simp] theorem State.modRst_safety (s : State) (f : ResetCtl → ResetCtl) : (s.modRst f).safety = s.safety := rfl
@[simp] theorem State.modRst_recorder (s : State) (f : ResetCtl → ResetCtl) : (s.modRst f).recorder = s.recorder := rfl
@[simp] theorem State.modRst_owner (s : State) (f : ResetCtl → ResetCtl) : (s.modRst f).owner = s.owner := rfl
@[simp] theorem State.modRst_cal (s : State) (f : ResetCtl → ResetCtl) : (s.modRst f).cal = s.cal := rfl
@[simp] theorem State.modRst_nvm (s : State) (f : ResetCtl → ResetCtl) : (s.modRst f).nvm = s.nvm := rfl
@[simp] theorem State.modRst_settle (s : State) (f : ResetCtl → ResetCtl) : (s.modRst f).settle = s.settle := rfl
@[simp] theorem State.modRst_pending (s : State) (f : ResetCtl → ResetCtl) : (s.modRst f).pending = s.pending := rfl

/-! `modBoot` -/

@[simp] theorem State.modBoot_phase (s : State) (f : Boot → Boot) : (s.modBoot f).phase = s.phase := rfl
@[simp] theorem State.modBoot_regs (s : State) (f : Boot → Boot) : (s.modBoot f).regs = s.regs := rfl
@[simp] theorem State.modBoot_time (s : State) (f : Boot → Boot) : (s.modBoot f).time = s.time := rfl
@[simp] theorem State.modBoot_clk (s : State) (f : Boot → Boot) : (s.modBoot f).clk = s.clk := rfl
@[simp] theorem State.modBoot_cd08 (s : State) (f : Boot → Boot) : (s.modBoot f).cd08 = s.cd08 := rfl
@[simp] theorem State.modBoot_chain (s : State) (f : Boot → Boot) : (s.modBoot f).chain = s.chain := rfl
@[simp] theorem State.modBoot_clocks (s : State) (f : Boot → Boot) : (s.modBoot f).clocks = s.clocks := rfl
@[simp] theorem State.modBoot_spread (s : State) (f : Boot → Boot) : (s.modBoot f).spread = s.spread := rfl
@[simp] theorem State.modBoot_ckout (s : State) (f : Boot → Boot) : (s.modBoot f).ckout = s.ckout := rfl
@[simp] theorem State.modBoot_power (s : State) (f : Boot → Boot) : (s.modBoot f).power = s.power := rfl
@[simp] theorem State.modBoot_rst (s : State) (f : Boot → Boot) : (s.modBoot f).rst = s.rst := rfl
@[simp] theorem State.modBoot_boot (s : State) (f : Boot → Boot) : (s.modBoot f).boot = f s.boot := rfl
@[simp] theorem State.modBoot_unit (s : State) (f : Boot → Boot) : (s.modBoot f).unit = s.unit := rfl
@[simp] theorem State.modBoot_manil (s : State) (f : Boot → Boot) : (s.modBoot f).manil = s.manil := rfl
@[simp] theorem State.modBoot_motion (s : State) (f : Boot → Boot) : (s.modBoot f).motion = s.motion := rfl
@[simp] theorem State.modBoot_engine (s : State) (f : Boot → Boot) : (s.modBoot f).engine = s.engine := rfl
@[simp] theorem State.modBoot_sol (s : State) (f : Boot → Boot) : (s.modBoot f).sol = s.sol := rfl
@[simp] theorem State.modBoot_pwm (s : State) (f : Boot → Boot) : (s.modBoot f).pwm = s.pwm := rfl
@[simp] theorem State.modBoot_pilot (s : State) (f : Boot → Boot) : (s.modBoot f).pilot = s.pilot := rfl
@[simp] theorem State.modBoot_safety (s : State) (f : Boot → Boot) : (s.modBoot f).safety = s.safety := rfl
@[simp] theorem State.modBoot_recorder (s : State) (f : Boot → Boot) : (s.modBoot f).recorder = s.recorder := rfl
@[simp] theorem State.modBoot_owner (s : State) (f : Boot → Boot) : (s.modBoot f).owner = s.owner := rfl
@[simp] theorem State.modBoot_cal (s : State) (f : Boot → Boot) : (s.modBoot f).cal = s.cal := rfl
@[simp] theorem State.modBoot_nvm (s : State) (f : Boot → Boot) : (s.modBoot f).nvm = s.nvm := rfl
@[simp] theorem State.modBoot_settle (s : State) (f : Boot → Boot) : (s.modBoot f).settle = s.settle := rfl
@[simp] theorem State.modBoot_pending (s : State) (f : Boot → Boot) : (s.modBoot f).pending = s.pending := rfl

/-! `modUnit` -/

@[simp] theorem State.modUnit_phase (s : State) (f : UnitStatus → UnitStatus) : (s.modUnit f).phase = s.phase := rfl
@[simp] theorem State.modUnit_regs (s : State) (f : UnitStatus → UnitStatus) : (s.modUnit f).regs = s.regs := rfl
@[simp] theorem State.modUnit_time (s : State) (f : UnitStatus → UnitStatus) : (s.modUnit f).time = s.time := rfl
@[simp] theorem State.modUnit_clk (s : State) (f : UnitStatus → UnitStatus) : (s.modUnit f).clk = s.clk := rfl
@[simp] theorem State.modUnit_cd08 (s : State) (f : UnitStatus → UnitStatus) : (s.modUnit f).cd08 = s.cd08 := rfl
@[simp] theorem State.modUnit_chain (s : State) (f : UnitStatus → UnitStatus) : (s.modUnit f).chain = s.chain := rfl
@[simp] theorem State.modUnit_clocks (s : State) (f : UnitStatus → UnitStatus) : (s.modUnit f).clocks = s.clocks := rfl
@[simp] theorem State.modUnit_spread (s : State) (f : UnitStatus → UnitStatus) : (s.modUnit f).spread = s.spread := rfl
@[simp] theorem State.modUnit_ckout (s : State) (f : UnitStatus → UnitStatus) : (s.modUnit f).ckout = s.ckout := rfl
@[simp] theorem State.modUnit_power (s : State) (f : UnitStatus → UnitStatus) : (s.modUnit f).power = s.power := rfl
@[simp] theorem State.modUnit_rst (s : State) (f : UnitStatus → UnitStatus) : (s.modUnit f).rst = s.rst := rfl
@[simp] theorem State.modUnit_boot (s : State) (f : UnitStatus → UnitStatus) : (s.modUnit f).boot = s.boot := rfl
@[simp] theorem State.modUnit_unit (s : State) (f : UnitStatus → UnitStatus) : (s.modUnit f).unit = f s.unit := rfl
@[simp] theorem State.modUnit_manil (s : State) (f : UnitStatus → UnitStatus) : (s.modUnit f).manil = s.manil := rfl
@[simp] theorem State.modUnit_motion (s : State) (f : UnitStatus → UnitStatus) : (s.modUnit f).motion = s.motion := rfl
@[simp] theorem State.modUnit_engine (s : State) (f : UnitStatus → UnitStatus) : (s.modUnit f).engine = s.engine := rfl
@[simp] theorem State.modUnit_sol (s : State) (f : UnitStatus → UnitStatus) : (s.modUnit f).sol = s.sol := rfl
@[simp] theorem State.modUnit_pwm (s : State) (f : UnitStatus → UnitStatus) : (s.modUnit f).pwm = s.pwm := rfl
@[simp] theorem State.modUnit_pilot (s : State) (f : UnitStatus → UnitStatus) : (s.modUnit f).pilot = s.pilot := rfl
@[simp] theorem State.modUnit_safety (s : State) (f : UnitStatus → UnitStatus) : (s.modUnit f).safety = s.safety := rfl
@[simp] theorem State.modUnit_recorder (s : State) (f : UnitStatus → UnitStatus) : (s.modUnit f).recorder = s.recorder := rfl
@[simp] theorem State.modUnit_owner (s : State) (f : UnitStatus → UnitStatus) : (s.modUnit f).owner = s.owner := rfl
@[simp] theorem State.modUnit_cal (s : State) (f : UnitStatus → UnitStatus) : (s.modUnit f).cal = s.cal := rfl
@[simp] theorem State.modUnit_nvm (s : State) (f : UnitStatus → UnitStatus) : (s.modUnit f).nvm = s.nvm := rfl
@[simp] theorem State.modUnit_settle (s : State) (f : UnitStatus → UnitStatus) : (s.modUnit f).settle = s.settle := rfl
@[simp] theorem State.modUnit_pending (s : State) (f : UnitStatus → UnitStatus) : (s.modUnit f).pending = s.pending := rfl

/-! `modManil` -/

@[simp] theorem State.modManil_phase (s : State) (f : Manil → Manil) : (s.modManil f).phase = s.phase := rfl
@[simp] theorem State.modManil_regs (s : State) (f : Manil → Manil) : (s.modManil f).regs = s.regs := rfl
@[simp] theorem State.modManil_time (s : State) (f : Manil → Manil) : (s.modManil f).time = s.time := rfl
@[simp] theorem State.modManil_clk (s : State) (f : Manil → Manil) : (s.modManil f).clk = s.clk := rfl
@[simp] theorem State.modManil_cd08 (s : State) (f : Manil → Manil) : (s.modManil f).cd08 = s.cd08 := rfl
@[simp] theorem State.modManil_chain (s : State) (f : Manil → Manil) : (s.modManil f).chain = s.chain := rfl
@[simp] theorem State.modManil_clocks (s : State) (f : Manil → Manil) : (s.modManil f).clocks = s.clocks := rfl
@[simp] theorem State.modManil_spread (s : State) (f : Manil → Manil) : (s.modManil f).spread = s.spread := rfl
@[simp] theorem State.modManil_ckout (s : State) (f : Manil → Manil) : (s.modManil f).ckout = s.ckout := rfl
@[simp] theorem State.modManil_power (s : State) (f : Manil → Manil) : (s.modManil f).power = s.power := rfl
@[simp] theorem State.modManil_rst (s : State) (f : Manil → Manil) : (s.modManil f).rst = s.rst := rfl
@[simp] theorem State.modManil_boot (s : State) (f : Manil → Manil) : (s.modManil f).boot = s.boot := rfl
@[simp] theorem State.modManil_unit (s : State) (f : Manil → Manil) : (s.modManil f).unit = s.unit := rfl
@[simp] theorem State.modManil_manil (s : State) (f : Manil → Manil) : (s.modManil f).manil = f s.manil := rfl
@[simp] theorem State.modManil_motion (s : State) (f : Manil → Manil) : (s.modManil f).motion = s.motion := rfl
@[simp] theorem State.modManil_engine (s : State) (f : Manil → Manil) : (s.modManil f).engine = s.engine := rfl
@[simp] theorem State.modManil_sol (s : State) (f : Manil → Manil) : (s.modManil f).sol = s.sol := rfl
@[simp] theorem State.modManil_pwm (s : State) (f : Manil → Manil) : (s.modManil f).pwm = s.pwm := rfl
@[simp] theorem State.modManil_pilot (s : State) (f : Manil → Manil) : (s.modManil f).pilot = s.pilot := rfl
@[simp] theorem State.modManil_safety (s : State) (f : Manil → Manil) : (s.modManil f).safety = s.safety := rfl
@[simp] theorem State.modManil_recorder (s : State) (f : Manil → Manil) : (s.modManil f).recorder = s.recorder := rfl
@[simp] theorem State.modManil_owner (s : State) (f : Manil → Manil) : (s.modManil f).owner = s.owner := rfl
@[simp] theorem State.modManil_cal (s : State) (f : Manil → Manil) : (s.modManil f).cal = s.cal := rfl
@[simp] theorem State.modManil_nvm (s : State) (f : Manil → Manil) : (s.modManil f).nvm = s.nvm := rfl
@[simp] theorem State.modManil_settle (s : State) (f : Manil → Manil) : (s.modManil f).settle = s.settle := rfl
@[simp] theorem State.modManil_pending (s : State) (f : Manil → Manil) : (s.modManil f).pending = s.pending := rfl

/-! `modMotion` -/

@[simp] theorem State.modMotion_phase (s : State) (f : Motion → Motion) : (s.modMotion f).phase = s.phase := rfl
@[simp] theorem State.modMotion_regs (s : State) (f : Motion → Motion) : (s.modMotion f).regs = s.regs := rfl
@[simp] theorem State.modMotion_time (s : State) (f : Motion → Motion) : (s.modMotion f).time = s.time := rfl
@[simp] theorem State.modMotion_clk (s : State) (f : Motion → Motion) : (s.modMotion f).clk = s.clk := rfl
@[simp] theorem State.modMotion_cd08 (s : State) (f : Motion → Motion) : (s.modMotion f).cd08 = s.cd08 := rfl
@[simp] theorem State.modMotion_chain (s : State) (f : Motion → Motion) : (s.modMotion f).chain = s.chain := rfl
@[simp] theorem State.modMotion_clocks (s : State) (f : Motion → Motion) : (s.modMotion f).clocks = s.clocks := rfl
@[simp] theorem State.modMotion_spread (s : State) (f : Motion → Motion) : (s.modMotion f).spread = s.spread := rfl
@[simp] theorem State.modMotion_ckout (s : State) (f : Motion → Motion) : (s.modMotion f).ckout = s.ckout := rfl
@[simp] theorem State.modMotion_power (s : State) (f : Motion → Motion) : (s.modMotion f).power = s.power := rfl
@[simp] theorem State.modMotion_rst (s : State) (f : Motion → Motion) : (s.modMotion f).rst = s.rst := rfl
@[simp] theorem State.modMotion_boot (s : State) (f : Motion → Motion) : (s.modMotion f).boot = s.boot := rfl
@[simp] theorem State.modMotion_unit (s : State) (f : Motion → Motion) : (s.modMotion f).unit = s.unit := rfl
@[simp] theorem State.modMotion_manil (s : State) (f : Motion → Motion) : (s.modMotion f).manil = s.manil := rfl
@[simp] theorem State.modMotion_motion (s : State) (f : Motion → Motion) : (s.modMotion f).motion = f s.motion := rfl
@[simp] theorem State.modMotion_engine (s : State) (f : Motion → Motion) : (s.modMotion f).engine = s.engine := rfl
@[simp] theorem State.modMotion_sol (s : State) (f : Motion → Motion) : (s.modMotion f).sol = s.sol := rfl
@[simp] theorem State.modMotion_pwm (s : State) (f : Motion → Motion) : (s.modMotion f).pwm = s.pwm := rfl
@[simp] theorem State.modMotion_pilot (s : State) (f : Motion → Motion) : (s.modMotion f).pilot = s.pilot := rfl
@[simp] theorem State.modMotion_safety (s : State) (f : Motion → Motion) : (s.modMotion f).safety = s.safety := rfl
@[simp] theorem State.modMotion_recorder (s : State) (f : Motion → Motion) : (s.modMotion f).recorder = s.recorder := rfl
@[simp] theorem State.modMotion_owner (s : State) (f : Motion → Motion) : (s.modMotion f).owner = s.owner := rfl
@[simp] theorem State.modMotion_cal (s : State) (f : Motion → Motion) : (s.modMotion f).cal = s.cal := rfl
@[simp] theorem State.modMotion_nvm (s : State) (f : Motion → Motion) : (s.modMotion f).nvm = s.nvm := rfl
@[simp] theorem State.modMotion_settle (s : State) (f : Motion → Motion) : (s.modMotion f).settle = s.settle := rfl
@[simp] theorem State.modMotion_pending (s : State) (f : Motion → Motion) : (s.modMotion f).pending = s.pending := rfl

/-! `modPwm` -/

@[simp] theorem State.modPwm_phase (s : State) (f : Pwm → Pwm) : (s.modPwm f).phase = s.phase := rfl
@[simp] theorem State.modPwm_regs (s : State) (f : Pwm → Pwm) : (s.modPwm f).regs = s.regs := rfl
@[simp] theorem State.modPwm_time (s : State) (f : Pwm → Pwm) : (s.modPwm f).time = s.time := rfl
@[simp] theorem State.modPwm_clk (s : State) (f : Pwm → Pwm) : (s.modPwm f).clk = s.clk := rfl
@[simp] theorem State.modPwm_cd08 (s : State) (f : Pwm → Pwm) : (s.modPwm f).cd08 = s.cd08 := rfl
@[simp] theorem State.modPwm_chain (s : State) (f : Pwm → Pwm) : (s.modPwm f).chain = s.chain := rfl
@[simp] theorem State.modPwm_clocks (s : State) (f : Pwm → Pwm) : (s.modPwm f).clocks = s.clocks := rfl
@[simp] theorem State.modPwm_spread (s : State) (f : Pwm → Pwm) : (s.modPwm f).spread = s.spread := rfl
@[simp] theorem State.modPwm_ckout (s : State) (f : Pwm → Pwm) : (s.modPwm f).ckout = s.ckout := rfl
@[simp] theorem State.modPwm_power (s : State) (f : Pwm → Pwm) : (s.modPwm f).power = s.power := rfl
@[simp] theorem State.modPwm_rst (s : State) (f : Pwm → Pwm) : (s.modPwm f).rst = s.rst := rfl
@[simp] theorem State.modPwm_boot (s : State) (f : Pwm → Pwm) : (s.modPwm f).boot = s.boot := rfl
@[simp] theorem State.modPwm_unit (s : State) (f : Pwm → Pwm) : (s.modPwm f).unit = s.unit := rfl
@[simp] theorem State.modPwm_manil (s : State) (f : Pwm → Pwm) : (s.modPwm f).manil = s.manil := rfl
@[simp] theorem State.modPwm_motion (s : State) (f : Pwm → Pwm) : (s.modPwm f).motion = s.motion := rfl
@[simp] theorem State.modPwm_engine (s : State) (f : Pwm → Pwm) : (s.modPwm f).engine = s.engine := rfl
@[simp] theorem State.modPwm_sol (s : State) (f : Pwm → Pwm) : (s.modPwm f).sol = s.sol := rfl
@[simp] theorem State.modPwm_pwm (s : State) (f : Pwm → Pwm) : (s.modPwm f).pwm = f s.pwm := rfl
@[simp] theorem State.modPwm_pilot (s : State) (f : Pwm → Pwm) : (s.modPwm f).pilot = s.pilot := rfl
@[simp] theorem State.modPwm_safety (s : State) (f : Pwm → Pwm) : (s.modPwm f).safety = s.safety := rfl
@[simp] theorem State.modPwm_recorder (s : State) (f : Pwm → Pwm) : (s.modPwm f).recorder = s.recorder := rfl
@[simp] theorem State.modPwm_owner (s : State) (f : Pwm → Pwm) : (s.modPwm f).owner = s.owner := rfl
@[simp] theorem State.modPwm_cal (s : State) (f : Pwm → Pwm) : (s.modPwm f).cal = s.cal := rfl
@[simp] theorem State.modPwm_nvm (s : State) (f : Pwm → Pwm) : (s.modPwm f).nvm = s.nvm := rfl
@[simp] theorem State.modPwm_settle (s : State) (f : Pwm → Pwm) : (s.modPwm f).settle = s.settle := rfl
@[simp] theorem State.modPwm_pending (s : State) (f : Pwm → Pwm) : (s.modPwm f).pending = s.pending := rfl

/-! `modPilot` -/

@[simp] theorem State.modPilot_phase (s : State) (f : Pilot → Pilot) : (s.modPilot f).phase = s.phase := rfl
@[simp] theorem State.modPilot_regs (s : State) (f : Pilot → Pilot) : (s.modPilot f).regs = s.regs := rfl
@[simp] theorem State.modPilot_time (s : State) (f : Pilot → Pilot) : (s.modPilot f).time = s.time := rfl
@[simp] theorem State.modPilot_clk (s : State) (f : Pilot → Pilot) : (s.modPilot f).clk = s.clk := rfl
@[simp] theorem State.modPilot_cd08 (s : State) (f : Pilot → Pilot) : (s.modPilot f).cd08 = s.cd08 := rfl
@[simp] theorem State.modPilot_chain (s : State) (f : Pilot → Pilot) : (s.modPilot f).chain = s.chain := rfl
@[simp] theorem State.modPilot_clocks (s : State) (f : Pilot → Pilot) : (s.modPilot f).clocks = s.clocks := rfl
@[simp] theorem State.modPilot_spread (s : State) (f : Pilot → Pilot) : (s.modPilot f).spread = s.spread := rfl
@[simp] theorem State.modPilot_ckout (s : State) (f : Pilot → Pilot) : (s.modPilot f).ckout = s.ckout := rfl
@[simp] theorem State.modPilot_power (s : State) (f : Pilot → Pilot) : (s.modPilot f).power = s.power := rfl
@[simp] theorem State.modPilot_rst (s : State) (f : Pilot → Pilot) : (s.modPilot f).rst = s.rst := rfl
@[simp] theorem State.modPilot_boot (s : State) (f : Pilot → Pilot) : (s.modPilot f).boot = s.boot := rfl
@[simp] theorem State.modPilot_unit (s : State) (f : Pilot → Pilot) : (s.modPilot f).unit = s.unit := rfl
@[simp] theorem State.modPilot_manil (s : State) (f : Pilot → Pilot) : (s.modPilot f).manil = s.manil := rfl
@[simp] theorem State.modPilot_motion (s : State) (f : Pilot → Pilot) : (s.modPilot f).motion = s.motion := rfl
@[simp] theorem State.modPilot_engine (s : State) (f : Pilot → Pilot) : (s.modPilot f).engine = s.engine := rfl
@[simp] theorem State.modPilot_sol (s : State) (f : Pilot → Pilot) : (s.modPilot f).sol = s.sol := rfl
@[simp] theorem State.modPilot_pwm (s : State) (f : Pilot → Pilot) : (s.modPilot f).pwm = s.pwm := rfl
@[simp] theorem State.modPilot_pilot (s : State) (f : Pilot → Pilot) : (s.modPilot f).pilot = f s.pilot := rfl
@[simp] theorem State.modPilot_safety (s : State) (f : Pilot → Pilot) : (s.modPilot f).safety = s.safety := rfl
@[simp] theorem State.modPilot_recorder (s : State) (f : Pilot → Pilot) : (s.modPilot f).recorder = s.recorder := rfl
@[simp] theorem State.modPilot_owner (s : State) (f : Pilot → Pilot) : (s.modPilot f).owner = s.owner := rfl
@[simp] theorem State.modPilot_cal (s : State) (f : Pilot → Pilot) : (s.modPilot f).cal = s.cal := rfl
@[simp] theorem State.modPilot_nvm (s : State) (f : Pilot → Pilot) : (s.modPilot f).nvm = s.nvm := rfl
@[simp] theorem State.modPilot_settle (s : State) (f : Pilot → Pilot) : (s.modPilot f).settle = s.settle := rfl
@[simp] theorem State.modPilot_pending (s : State) (f : Pilot → Pilot) : (s.modPilot f).pending = s.pending := rfl

/-! `modRec` -/

@[simp] theorem State.modRec_phase (s : State) (f : Recorder → Recorder) : (s.modRec f).phase = s.phase := rfl
@[simp] theorem State.modRec_regs (s : State) (f : Recorder → Recorder) : (s.modRec f).regs = s.regs := rfl
@[simp] theorem State.modRec_time (s : State) (f : Recorder → Recorder) : (s.modRec f).time = s.time := rfl
@[simp] theorem State.modRec_clk (s : State) (f : Recorder → Recorder) : (s.modRec f).clk = s.clk := rfl
@[simp] theorem State.modRec_cd08 (s : State) (f : Recorder → Recorder) : (s.modRec f).cd08 = s.cd08 := rfl
@[simp] theorem State.modRec_chain (s : State) (f : Recorder → Recorder) : (s.modRec f).chain = s.chain := rfl
@[simp] theorem State.modRec_clocks (s : State) (f : Recorder → Recorder) : (s.modRec f).clocks = s.clocks := rfl
@[simp] theorem State.modRec_spread (s : State) (f : Recorder → Recorder) : (s.modRec f).spread = s.spread := rfl
@[simp] theorem State.modRec_ckout (s : State) (f : Recorder → Recorder) : (s.modRec f).ckout = s.ckout := rfl
@[simp] theorem State.modRec_power (s : State) (f : Recorder → Recorder) : (s.modRec f).power = s.power := rfl
@[simp] theorem State.modRec_rst (s : State) (f : Recorder → Recorder) : (s.modRec f).rst = s.rst := rfl
@[simp] theorem State.modRec_boot (s : State) (f : Recorder → Recorder) : (s.modRec f).boot = s.boot := rfl
@[simp] theorem State.modRec_unit (s : State) (f : Recorder → Recorder) : (s.modRec f).unit = s.unit := rfl
@[simp] theorem State.modRec_manil (s : State) (f : Recorder → Recorder) : (s.modRec f).manil = s.manil := rfl
@[simp] theorem State.modRec_motion (s : State) (f : Recorder → Recorder) : (s.modRec f).motion = s.motion := rfl
@[simp] theorem State.modRec_engine (s : State) (f : Recorder → Recorder) : (s.modRec f).engine = s.engine := rfl
@[simp] theorem State.modRec_sol (s : State) (f : Recorder → Recorder) : (s.modRec f).sol = s.sol := rfl
@[simp] theorem State.modRec_pwm (s : State) (f : Recorder → Recorder) : (s.modRec f).pwm = s.pwm := rfl
@[simp] theorem State.modRec_pilot (s : State) (f : Recorder → Recorder) : (s.modRec f).pilot = s.pilot := rfl
@[simp] theorem State.modRec_safety (s : State) (f : Recorder → Recorder) : (s.modRec f).safety = s.safety := rfl
@[simp] theorem State.modRec_recorder (s : State) (f : Recorder → Recorder) : (s.modRec f).recorder = f s.recorder := rfl
@[simp] theorem State.modRec_owner (s : State) (f : Recorder → Recorder) : (s.modRec f).owner = s.owner := rfl
@[simp] theorem State.modRec_cal (s : State) (f : Recorder → Recorder) : (s.modRec f).cal = s.cal := rfl
@[simp] theorem State.modRec_nvm (s : State) (f : Recorder → Recorder) : (s.modRec f).nvm = s.nvm := rfl
@[simp] theorem State.modRec_settle (s : State) (f : Recorder → Recorder) : (s.modRec f).settle = s.settle := rfl
@[simp] theorem State.modRec_pending (s : State) (f : Recorder → Recorder) : (s.modRec f).pending = s.pending := rfl

/-! `modCal` -/

@[simp] theorem State.modCal_phase (s : State) (f : Calendar → Calendar) : (s.modCal f).phase = s.phase := rfl
@[simp] theorem State.modCal_regs (s : State) (f : Calendar → Calendar) : (s.modCal f).regs = s.regs := rfl
@[simp] theorem State.modCal_time (s : State) (f : Calendar → Calendar) : (s.modCal f).time = s.time := rfl
@[simp] theorem State.modCal_clk (s : State) (f : Calendar → Calendar) : (s.modCal f).clk = s.clk := rfl
@[simp] theorem State.modCal_cd08 (s : State) (f : Calendar → Calendar) : (s.modCal f).cd08 = s.cd08 := rfl
@[simp] theorem State.modCal_chain (s : State) (f : Calendar → Calendar) : (s.modCal f).chain = s.chain := rfl
@[simp] theorem State.modCal_clocks (s : State) (f : Calendar → Calendar) : (s.modCal f).clocks = s.clocks := rfl
@[simp] theorem State.modCal_spread (s : State) (f : Calendar → Calendar) : (s.modCal f).spread = s.spread := rfl
@[simp] theorem State.modCal_ckout (s : State) (f : Calendar → Calendar) : (s.modCal f).ckout = s.ckout := rfl
@[simp] theorem State.modCal_power (s : State) (f : Calendar → Calendar) : (s.modCal f).power = s.power := rfl
@[simp] theorem State.modCal_rst (s : State) (f : Calendar → Calendar) : (s.modCal f).rst = s.rst := rfl
@[simp] theorem State.modCal_boot (s : State) (f : Calendar → Calendar) : (s.modCal f).boot = s.boot := rfl
@[simp] theorem State.modCal_unit (s : State) (f : Calendar → Calendar) : (s.modCal f).unit = s.unit := rfl
@[simp] theorem State.modCal_manil (s : State) (f : Calendar → Calendar) : (s.modCal f).manil = s.manil := rfl
@[simp] theorem State.modCal_motion (s : State) (f : Calendar → Calendar) : (s.modCal f).motion = s.motion := rfl
@[simp] theorem State.modCal_engine (s : State) (f : Calendar → Calendar) : (s.modCal f).engine = s.engine := rfl
@[simp] theorem State.modCal_sol (s : State) (f : Calendar → Calendar) : (s.modCal f).sol = s.sol := rfl
@[simp] theorem State.modCal_pwm (s : State) (f : Calendar → Calendar) : (s.modCal f).pwm = s.pwm := rfl
@[simp] theorem State.modCal_pilot (s : State) (f : Calendar → Calendar) : (s.modCal f).pilot = s.pilot := rfl
@[simp] theorem State.modCal_safety (s : State) (f : Calendar → Calendar) : (s.modCal f).safety = s.safety := rfl
@[simp] theorem State.modCal_recorder (s : State) (f : Calendar → Calendar) : (s.modCal f).recorder = s.recorder := rfl
@[simp] theorem State.modCal_owner (s : State) (f : Calendar → Calendar) : (s.modCal f).owner = s.owner := rfl
@[simp] theorem State.modCal_cal (s : State) (f : Calendar → Calendar) : (s.modCal f).cal = f s.cal := rfl
@[simp] theorem State.modCal_nvm (s : State) (f : Calendar → Calendar) : (s.modCal f).nvm = s.nvm := rfl
@[simp] theorem State.modCal_settle (s : State) (f : Calendar → Calendar) : (s.modCal f).settle = s.settle := rfl
@[simp] theorem State.modCal_pending (s : State) (f : Calendar → Calendar) : (s.modCal f).pending = s.pending := rfl

/-! `modSol` -/

@[simp] theorem State.modSol_phase (s : State) (c : Fin 32) (f : SolChan → SolChan) : (s.modSol c f).phase = s.phase := rfl
@[simp] theorem State.modSol_regs (s : State) (c : Fin 32) (f : SolChan → SolChan) : (s.modSol c f).regs = s.regs := rfl
@[simp] theorem State.modSol_time (s : State) (c : Fin 32) (f : SolChan → SolChan) : (s.modSol c f).time = s.time := rfl
@[simp] theorem State.modSol_clk (s : State) (c : Fin 32) (f : SolChan → SolChan) : (s.modSol c f).clk = s.clk := rfl
@[simp] theorem State.modSol_cd08 (s : State) (c : Fin 32) (f : SolChan → SolChan) : (s.modSol c f).cd08 = s.cd08 := rfl
@[simp] theorem State.modSol_chain (s : State) (c : Fin 32) (f : SolChan → SolChan) : (s.modSol c f).chain = s.chain := rfl
@[simp] theorem State.modSol_clocks (s : State) (c : Fin 32) (f : SolChan → SolChan) : (s.modSol c f).clocks = s.clocks := rfl
@[simp] theorem State.modSol_spread (s : State) (c : Fin 32) (f : SolChan → SolChan) : (s.modSol c f).spread = s.spread := rfl
@[simp] theorem State.modSol_ckout (s : State) (c : Fin 32) (f : SolChan → SolChan) : (s.modSol c f).ckout = s.ckout := rfl
@[simp] theorem State.modSol_power (s : State) (c : Fin 32) (f : SolChan → SolChan) : (s.modSol c f).power = s.power := rfl
@[simp] theorem State.modSol_rst (s : State) (c : Fin 32) (f : SolChan → SolChan) : (s.modSol c f).rst = s.rst := rfl
@[simp] theorem State.modSol_boot (s : State) (c : Fin 32) (f : SolChan → SolChan) : (s.modSol c f).boot = s.boot := rfl
@[simp] theorem State.modSol_unit (s : State) (c : Fin 32) (f : SolChan → SolChan) : (s.modSol c f).unit = s.unit := rfl
@[simp] theorem State.modSol_manil (s : State) (c : Fin 32) (f : SolChan → SolChan) : (s.modSol c f).manil = s.manil := rfl
@[simp] theorem State.modSol_motion (s : State) (c : Fin 32) (f : SolChan → SolChan) : (s.modSol c f).motion = s.motion := rfl
@[simp] theorem State.modSol_engine (s : State) (c : Fin 32) (f : SolChan → SolChan) : (s.modSol c f).engine = s.engine := rfl
@[simp] theorem State.modSol_sol_chans (s : State) (c : Fin 32) (f : SolChan → SolChan) : (s.modSol c f).sol.chans = upd s.sol.chans c f := rfl
@[simp] theorem State.modSol_sol_banks (s : State) (c : Fin 32) (f : SolChan → SolChan) : (s.modSol c f).sol.banks = s.sol.banks := rfl
@[simp] theorem State.modSol_sol_boost (s : State) (c : Fin 32) (f : SolChan → SolChan) : (s.modSol c f).sol.boost = s.sol.boost := rfl
@[simp] theorem State.modSol_pwm (s : State) (c : Fin 32) (f : SolChan → SolChan) : (s.modSol c f).pwm = s.pwm := rfl
@[simp] theorem State.modSol_pilot (s : State) (c : Fin 32) (f : SolChan → SolChan) : (s.modSol c f).pilot = s.pilot := rfl
@[simp] theorem State.modSol_safety (s : State) (c : Fin 32) (f : SolChan → SolChan) : (s.modSol c f).safety = s.safety := rfl
@[simp] theorem State.modSol_recorder (s : State) (c : Fin 32) (f : SolChan → SolChan) : (s.modSol c f).recorder = s.recorder := rfl
@[simp] theorem State.modSol_owner (s : State) (c : Fin 32) (f : SolChan → SolChan) : (s.modSol c f).owner = s.owner := rfl
@[simp] theorem State.modSol_cal (s : State) (c : Fin 32) (f : SolChan → SolChan) : (s.modSol c f).cal = s.cal := rfl
@[simp] theorem State.modSol_nvm (s : State) (c : Fin 32) (f : SolChan → SolChan) : (s.modSol c f).nvm = s.nvm := rfl
@[simp] theorem State.modSol_settle (s : State) (c : Fin 32) (f : SolChan → SolChan) : (s.modSol c f).settle = s.settle := rfl
@[simp] theorem State.modSol_pending (s : State) (c : Fin 32) (f : SolChan → SolChan) : (s.modSol c f).pending = s.pending := rfl

/-! `modBank` -/

@[simp] theorem State.modBank_phase (s : State) (b : Fin 8) (f : Bank → Bank) : (s.modBank b f).phase = s.phase := rfl
@[simp] theorem State.modBank_regs (s : State) (b : Fin 8) (f : Bank → Bank) : (s.modBank b f).regs = s.regs := rfl
@[simp] theorem State.modBank_time (s : State) (b : Fin 8) (f : Bank → Bank) : (s.modBank b f).time = s.time := rfl
@[simp] theorem State.modBank_clk (s : State) (b : Fin 8) (f : Bank → Bank) : (s.modBank b f).clk = s.clk := rfl
@[simp] theorem State.modBank_cd08 (s : State) (b : Fin 8) (f : Bank → Bank) : (s.modBank b f).cd08 = s.cd08 := rfl
@[simp] theorem State.modBank_chain (s : State) (b : Fin 8) (f : Bank → Bank) : (s.modBank b f).chain = s.chain := rfl
@[simp] theorem State.modBank_clocks (s : State) (b : Fin 8) (f : Bank → Bank) : (s.modBank b f).clocks = s.clocks := rfl
@[simp] theorem State.modBank_spread (s : State) (b : Fin 8) (f : Bank → Bank) : (s.modBank b f).spread = s.spread := rfl
@[simp] theorem State.modBank_ckout (s : State) (b : Fin 8) (f : Bank → Bank) : (s.modBank b f).ckout = s.ckout := rfl
@[simp] theorem State.modBank_power (s : State) (b : Fin 8) (f : Bank → Bank) : (s.modBank b f).power = s.power := rfl
@[simp] theorem State.modBank_rst (s : State) (b : Fin 8) (f : Bank → Bank) : (s.modBank b f).rst = s.rst := rfl
@[simp] theorem State.modBank_boot (s : State) (b : Fin 8) (f : Bank → Bank) : (s.modBank b f).boot = s.boot := rfl
@[simp] theorem State.modBank_unit (s : State) (b : Fin 8) (f : Bank → Bank) : (s.modBank b f).unit = s.unit := rfl
@[simp] theorem State.modBank_manil (s : State) (b : Fin 8) (f : Bank → Bank) : (s.modBank b f).manil = s.manil := rfl
@[simp] theorem State.modBank_motion (s : State) (b : Fin 8) (f : Bank → Bank) : (s.modBank b f).motion = s.motion := rfl
@[simp] theorem State.modBank_engine (s : State) (b : Fin 8) (f : Bank → Bank) : (s.modBank b f).engine = s.engine := rfl
@[simp] theorem State.modBank_sol_chans (s : State) (b : Fin 8) (f : Bank → Bank) : (s.modBank b f).sol.chans = s.sol.chans := rfl
@[simp] theorem State.modBank_sol_banks (s : State) (b : Fin 8) (f : Bank → Bank) : (s.modBank b f).sol.banks = upd s.sol.banks b f := rfl
@[simp] theorem State.modBank_sol_boost (s : State) (b : Fin 8) (f : Bank → Bank) : (s.modBank b f).sol.boost = s.sol.boost := rfl
@[simp] theorem State.modBank_pwm (s : State) (b : Fin 8) (f : Bank → Bank) : (s.modBank b f).pwm = s.pwm := rfl
@[simp] theorem State.modBank_pilot (s : State) (b : Fin 8) (f : Bank → Bank) : (s.modBank b f).pilot = s.pilot := rfl
@[simp] theorem State.modBank_safety (s : State) (b : Fin 8) (f : Bank → Bank) : (s.modBank b f).safety = s.safety := rfl
@[simp] theorem State.modBank_recorder (s : State) (b : Fin 8) (f : Bank → Bank) : (s.modBank b f).recorder = s.recorder := rfl
@[simp] theorem State.modBank_owner (s : State) (b : Fin 8) (f : Bank → Bank) : (s.modBank b f).owner = s.owner := rfl
@[simp] theorem State.modBank_cal (s : State) (b : Fin 8) (f : Bank → Bank) : (s.modBank b f).cal = s.cal := rfl
@[simp] theorem State.modBank_nvm (s : State) (b : Fin 8) (f : Bank → Bank) : (s.modBank b f).nvm = s.nvm := rfl
@[simp] theorem State.modBank_settle (s : State) (b : Fin 8) (f : Bank → Bank) : (s.modBank b f).settle = s.settle := rfl
@[simp] theorem State.modBank_pending (s : State) (b : Fin 8) (f : Bank → Bank) : (s.modBank b f).pending = s.pending := rfl

/-! `modSlice` -/

@[simp] theorem State.modSlice_phase (s : State) (i : Fin 12) (f : Slice → Slice) : (s.modSlice i f).phase = s.phase := rfl
@[simp] theorem State.modSlice_regs (s : State) (i : Fin 12) (f : Slice → Slice) : (s.modSlice i f).regs = s.regs := rfl
@[simp] theorem State.modSlice_time (s : State) (i : Fin 12) (f : Slice → Slice) : (s.modSlice i f).time = s.time := rfl
@[simp] theorem State.modSlice_clk (s : State) (i : Fin 12) (f : Slice → Slice) : (s.modSlice i f).clk = s.clk := rfl
@[simp] theorem State.modSlice_cd08 (s : State) (i : Fin 12) (f : Slice → Slice) : (s.modSlice i f).cd08 = s.cd08 := rfl
@[simp] theorem State.modSlice_chain (s : State) (i : Fin 12) (f : Slice → Slice) : (s.modSlice i f).chain = s.chain := rfl
@[simp] theorem State.modSlice_clocks (s : State) (i : Fin 12) (f : Slice → Slice) : (s.modSlice i f).clocks = s.clocks := rfl
@[simp] theorem State.modSlice_spread (s : State) (i : Fin 12) (f : Slice → Slice) : (s.modSlice i f).spread = s.spread := rfl
@[simp] theorem State.modSlice_ckout (s : State) (i : Fin 12) (f : Slice → Slice) : (s.modSlice i f).ckout = s.ckout := rfl
@[simp] theorem State.modSlice_power (s : State) (i : Fin 12) (f : Slice → Slice) : (s.modSlice i f).power = s.power := rfl
@[simp] theorem State.modSlice_rst (s : State) (i : Fin 12) (f : Slice → Slice) : (s.modSlice i f).rst = s.rst := rfl
@[simp] theorem State.modSlice_boot (s : State) (i : Fin 12) (f : Slice → Slice) : (s.modSlice i f).boot = s.boot := rfl
@[simp] theorem State.modSlice_unit (s : State) (i : Fin 12) (f : Slice → Slice) : (s.modSlice i f).unit = s.unit := rfl
@[simp] theorem State.modSlice_manil (s : State) (i : Fin 12) (f : Slice → Slice) : (s.modSlice i f).manil = s.manil := rfl
@[simp] theorem State.modSlice_motion (s : State) (i : Fin 12) (f : Slice → Slice) : (s.modSlice i f).motion = s.motion := rfl
@[simp] theorem State.modSlice_engine (s : State) (i : Fin 12) (f : Slice → Slice) : (s.modSlice i f).engine = s.engine := rfl
@[simp] theorem State.modSlice_sol (s : State) (i : Fin 12) (f : Slice → Slice) : (s.modSlice i f).sol = s.sol := rfl
@[simp] theorem State.modSlice_pwm_slices (s : State) (i : Fin 12) (f : Slice → Slice) : (s.modSlice i f).pwm.slices = upd s.pwm.slices i f := rfl
@[simp] theorem State.modSlice_pwm_valves (s : State) (i : Fin 12) (f : Slice → Slice) : (s.modSlice i f).pwm.valves = s.pwm.valves := rfl
@[simp] theorem State.modSlice_pwm_dis (s : State) (i : Fin 12) (f : Slice → Slice) : (s.modSlice i f).pwm.dis = s.pwm.dis := rfl
@[simp] theorem State.modSlice_pwm_fltLatch (s : State) (i : Fin 12) (f : Slice → Slice) : (s.modSlice i f).pwm.fltLatch = s.pwm.fltLatch := rfl
@[simp] theorem State.modSlice_pwm_fltPin (s : State) (i : Fin 12) (f : Slice → Slice) : (s.modSlice i f).pwm.fltPin = s.pwm.fltPin := rfl
@[simp] theorem State.modSlice_pwm_fltEvt (s : State) (i : Fin 12) (f : Slice → Slice) : (s.modSlice i f).pwm.fltEvt = s.pwm.fltEvt := rfl
@[simp] theorem State.modSlice_pwm_taps (s : State) (i : Fin 12) (f : Slice → Slice) : (s.modSlice i f).pwm.taps = s.pwm.taps := rfl
@[simp] theorem State.modSlice_pwm_calOk (s : State) (i : Fin 12) (f : Slice → Slice) : (s.modSlice i f).pwm.calOk = s.pwm.calOk := rfl
@[simp] theorem State.modSlice_pwm_evt (s : State) (i : Fin 12) (f : Slice → Slice) : (s.modSlice i f).pwm.evt = s.pwm.evt := rfl
@[simp] theorem State.modSlice_pwm_posDue (s : State) (i : Fin 12) (f : Slice → Slice) : (s.modSlice i f).pwm.posDue = s.pwm.posDue := rfl
@[simp] theorem State.modSlice_pilot (s : State) (i : Fin 12) (f : Slice → Slice) : (s.modSlice i f).pilot = s.pilot := rfl
@[simp] theorem State.modSlice_safety (s : State) (i : Fin 12) (f : Slice → Slice) : (s.modSlice i f).safety = s.safety := rfl
@[simp] theorem State.modSlice_recorder (s : State) (i : Fin 12) (f : Slice → Slice) : (s.modSlice i f).recorder = s.recorder := rfl
@[simp] theorem State.modSlice_owner (s : State) (i : Fin 12) (f : Slice → Slice) : (s.modSlice i f).owner = s.owner := rfl
@[simp] theorem State.modSlice_cal (s : State) (i : Fin 12) (f : Slice → Slice) : (s.modSlice i f).cal = s.cal := rfl
@[simp] theorem State.modSlice_nvm (s : State) (i : Fin 12) (f : Slice → Slice) : (s.modSlice i f).nvm = s.nvm := rfl
@[simp] theorem State.modSlice_settle (s : State) (i : Fin 12) (f : Slice → Slice) : (s.modSlice i f).settle = s.settle := rfl
@[simp] theorem State.modSlice_pending (s : State) (i : Fin 12) (f : Slice → Slice) : (s.modSlice i f).pending = s.pending := rfl

/-! `modValve` -/

@[simp] theorem State.modValve_phase (s : State) (v : Fin 8) (f : Valve → Valve) : (s.modValve v f).phase = s.phase := rfl
@[simp] theorem State.modValve_regs (s : State) (v : Fin 8) (f : Valve → Valve) : (s.modValve v f).regs = s.regs := rfl
@[simp] theorem State.modValve_time (s : State) (v : Fin 8) (f : Valve → Valve) : (s.modValve v f).time = s.time := rfl
@[simp] theorem State.modValve_clk (s : State) (v : Fin 8) (f : Valve → Valve) : (s.modValve v f).clk = s.clk := rfl
@[simp] theorem State.modValve_cd08 (s : State) (v : Fin 8) (f : Valve → Valve) : (s.modValve v f).cd08 = s.cd08 := rfl
@[simp] theorem State.modValve_chain (s : State) (v : Fin 8) (f : Valve → Valve) : (s.modValve v f).chain = s.chain := rfl
@[simp] theorem State.modValve_clocks (s : State) (v : Fin 8) (f : Valve → Valve) : (s.modValve v f).clocks = s.clocks := rfl
@[simp] theorem State.modValve_spread (s : State) (v : Fin 8) (f : Valve → Valve) : (s.modValve v f).spread = s.spread := rfl
@[simp] theorem State.modValve_ckout (s : State) (v : Fin 8) (f : Valve → Valve) : (s.modValve v f).ckout = s.ckout := rfl
@[simp] theorem State.modValve_power (s : State) (v : Fin 8) (f : Valve → Valve) : (s.modValve v f).power = s.power := rfl
@[simp] theorem State.modValve_rst (s : State) (v : Fin 8) (f : Valve → Valve) : (s.modValve v f).rst = s.rst := rfl
@[simp] theorem State.modValve_boot (s : State) (v : Fin 8) (f : Valve → Valve) : (s.modValve v f).boot = s.boot := rfl
@[simp] theorem State.modValve_unit (s : State) (v : Fin 8) (f : Valve → Valve) : (s.modValve v f).unit = s.unit := rfl
@[simp] theorem State.modValve_manil (s : State) (v : Fin 8) (f : Valve → Valve) : (s.modValve v f).manil = s.manil := rfl
@[simp] theorem State.modValve_motion (s : State) (v : Fin 8) (f : Valve → Valve) : (s.modValve v f).motion = s.motion := rfl
@[simp] theorem State.modValve_engine (s : State) (v : Fin 8) (f : Valve → Valve) : (s.modValve v f).engine = s.engine := rfl
@[simp] theorem State.modValve_sol (s : State) (v : Fin 8) (f : Valve → Valve) : (s.modValve v f).sol = s.sol := rfl
@[simp] theorem State.modValve_pwm_slices (s : State) (v : Fin 8) (f : Valve → Valve) : (s.modValve v f).pwm.slices = s.pwm.slices := rfl
@[simp] theorem State.modValve_pwm_valves (s : State) (v : Fin 8) (f : Valve → Valve) : (s.modValve v f).pwm.valves = upd s.pwm.valves v f := rfl
@[simp] theorem State.modValve_pwm_dis (s : State) (v : Fin 8) (f : Valve → Valve) : (s.modValve v f).pwm.dis = s.pwm.dis := rfl
@[simp] theorem State.modValve_pwm_fltLatch (s : State) (v : Fin 8) (f : Valve → Valve) : (s.modValve v f).pwm.fltLatch = s.pwm.fltLatch := rfl
@[simp] theorem State.modValve_pwm_fltPin (s : State) (v : Fin 8) (f : Valve → Valve) : (s.modValve v f).pwm.fltPin = s.pwm.fltPin := rfl
@[simp] theorem State.modValve_pwm_fltEvt (s : State) (v : Fin 8) (f : Valve → Valve) : (s.modValve v f).pwm.fltEvt = s.pwm.fltEvt := rfl
@[simp] theorem State.modValve_pwm_taps (s : State) (v : Fin 8) (f : Valve → Valve) : (s.modValve v f).pwm.taps = s.pwm.taps := rfl
@[simp] theorem State.modValve_pwm_calOk (s : State) (v : Fin 8) (f : Valve → Valve) : (s.modValve v f).pwm.calOk = s.pwm.calOk := rfl
@[simp] theorem State.modValve_pwm_evt (s : State) (v : Fin 8) (f : Valve → Valve) : (s.modValve v f).pwm.evt = s.pwm.evt := rfl
@[simp] theorem State.modValve_pwm_posDue (s : State) (v : Fin 8) (f : Valve → Valve) : (s.modValve v f).pwm.posDue = s.pwm.posDue := rfl
@[simp] theorem State.modValve_pilot (s : State) (v : Fin 8) (f : Valve → Valve) : (s.modValve v f).pilot = s.pilot := rfl
@[simp] theorem State.modValve_safety (s : State) (v : Fin 8) (f : Valve → Valve) : (s.modValve v f).safety = s.safety := rfl
@[simp] theorem State.modValve_recorder (s : State) (v : Fin 8) (f : Valve → Valve) : (s.modValve v f).recorder = s.recorder := rfl
@[simp] theorem State.modValve_owner (s : State) (v : Fin 8) (f : Valve → Valve) : (s.modValve v f).owner = s.owner := rfl
@[simp] theorem State.modValve_cal (s : State) (v : Fin 8) (f : Valve → Valve) : (s.modValve v f).cal = s.cal := rfl
@[simp] theorem State.modValve_nvm (s : State) (v : Fin 8) (f : Valve → Valve) : (s.modValve v f).nvm = s.nvm := rfl
@[simp] theorem State.modValve_settle (s : State) (v : Fin 8) (f : Valve → Valve) : (s.modValve v f).settle = s.settle := rfl
@[simp] theorem State.modValve_pending (s : State) (v : Fin 8) (f : Valve → Valve) : (s.modValve v f).pending = s.pending := rfl

/-! `modX` -/

@[simp] theorem State.modX_phase (s : State) (c : Fin 40) (f : XChan → XChan) : (s.modX c f).phase = s.phase := rfl
@[simp] theorem State.modX_regs (s : State) (c : Fin 40) (f : XChan → XChan) : (s.modX c f).regs = s.regs := rfl
@[simp] theorem State.modX_time (s : State) (c : Fin 40) (f : XChan → XChan) : (s.modX c f).time = s.time := rfl
@[simp] theorem State.modX_clk (s : State) (c : Fin 40) (f : XChan → XChan) : (s.modX c f).clk = s.clk := rfl
@[simp] theorem State.modX_cd08 (s : State) (c : Fin 40) (f : XChan → XChan) : (s.modX c f).cd08 = s.cd08 := rfl
@[simp] theorem State.modX_chain (s : State) (c : Fin 40) (f : XChan → XChan) : (s.modX c f).chain = s.chain := rfl
@[simp] theorem State.modX_clocks (s : State) (c : Fin 40) (f : XChan → XChan) : (s.modX c f).clocks = s.clocks := rfl
@[simp] theorem State.modX_spread (s : State) (c : Fin 40) (f : XChan → XChan) : (s.modX c f).spread = s.spread := rfl
@[simp] theorem State.modX_ckout (s : State) (c : Fin 40) (f : XChan → XChan) : (s.modX c f).ckout = s.ckout := rfl
@[simp] theorem State.modX_power (s : State) (c : Fin 40) (f : XChan → XChan) : (s.modX c f).power = s.power := rfl
@[simp] theorem State.modX_rst (s : State) (c : Fin 40) (f : XChan → XChan) : (s.modX c f).rst = s.rst := rfl
@[simp] theorem State.modX_boot (s : State) (c : Fin 40) (f : XChan → XChan) : (s.modX c f).boot = s.boot := rfl
@[simp] theorem State.modX_unit (s : State) (c : Fin 40) (f : XChan → XChan) : (s.modX c f).unit = s.unit := rfl
@[simp] theorem State.modX_manil (s : State) (c : Fin 40) (f : XChan → XChan) : (s.modX c f).manil = s.manil := rfl
@[simp] theorem State.modX_motion (s : State) (c : Fin 40) (f : XChan → XChan) : (s.modX c f).motion = s.motion := rfl
@[simp] theorem State.modX_engine_chans (s : State) (c : Fin 40) (f : XChan → XChan) : (s.modX c f).engine.chans = upd s.engine.chans c f := rfl
@[simp] theorem State.modX_engine_vselChain (s : State) (c : Fin 40) (f : XChan → XChan) : (s.modX c f).engine.vselChain = s.engine.vselChain := rfl
@[simp] theorem State.modX_engine_vselConsole (s : State) (c : Fin 40) (f : XChan → XChan) : (s.modX c f).engine.vselConsole = s.engine.vselConsole := rfl
@[simp] theorem State.modX_engine_evt (s : State) (c : Fin 40) (f : XChan → XChan) : (s.modX c f).engine.evt = s.engine.evt := rfl
@[simp] theorem State.modX_engine_eMiss (s : State) (c : Fin 40) (f : XChan → XChan) : (s.modX c f).engine.eMiss = s.engine.eMiss := rfl
@[simp] theorem State.modX_engine_eLate (s : State) (c : Fin 40) (f : XChan → XChan) : (s.modX c f).engine.eLate = s.engine.eLate := rfl
@[simp] theorem State.modX_engine_eRcast (s : State) (c : Fin 40) (f : XChan → XChan) : (s.modX c f).engine.eRcast = s.engine.eRcast := rfl
@[simp] theorem State.modX_engine_lastWatch (s : State) (c : Fin 40) (f : XChan → XChan) : (s.modX c f).engine.lastWatch = s.engine.lastWatch := rfl
@[simp] theorem State.modX_sol (s : State) (c : Fin 40) (f : XChan → XChan) : (s.modX c f).sol = s.sol := rfl
@[simp] theorem State.modX_pwm (s : State) (c : Fin 40) (f : XChan → XChan) : (s.modX c f).pwm = s.pwm := rfl
@[simp] theorem State.modX_pilot (s : State) (c : Fin 40) (f : XChan → XChan) : (s.modX c f).pilot = s.pilot := rfl
@[simp] theorem State.modX_safety (s : State) (c : Fin 40) (f : XChan → XChan) : (s.modX c f).safety = s.safety := rfl
@[simp] theorem State.modX_recorder (s : State) (c : Fin 40) (f : XChan → XChan) : (s.modX c f).recorder = s.recorder := rfl
@[simp] theorem State.modX_owner (s : State) (c : Fin 40) (f : XChan → XChan) : (s.modX c f).owner = s.owner := rfl
@[simp] theorem State.modX_cal (s : State) (c : Fin 40) (f : XChan → XChan) : (s.modX c f).cal = s.cal := rfl
@[simp] theorem State.modX_nvm (s : State) (c : Fin 40) (f : XChan → XChan) : (s.modX c f).nvm = s.nvm := rfl
@[simp] theorem State.modX_settle (s : State) (c : Fin 40) (f : XChan → XChan) : (s.modX c f).settle = s.settle := rfl
@[simp] theorem State.modX_pending (s : State) (c : Fin 40) (f : XChan → XChan) : (s.modX c f).pending = s.pending := rfl

/-! `modLoop` -/

@[simp] theorem State.modLoop_phase (s : State) (l : Fin 8) (f : Loop → Loop) : (s.modLoop l f).phase = s.phase := rfl
@[simp] theorem State.modLoop_regs (s : State) (l : Fin 8) (f : Loop → Loop) : (s.modLoop l f).regs = s.regs := rfl
@[simp] theorem State.modLoop_time (s : State) (l : Fin 8) (f : Loop → Loop) : (s.modLoop l f).time = s.time := rfl
@[simp] theorem State.modLoop_clk (s : State) (l : Fin 8) (f : Loop → Loop) : (s.modLoop l f).clk = s.clk := rfl
@[simp] theorem State.modLoop_cd08 (s : State) (l : Fin 8) (f : Loop → Loop) : (s.modLoop l f).cd08 = s.cd08 := rfl
@[simp] theorem State.modLoop_chain (s : State) (l : Fin 8) (f : Loop → Loop) : (s.modLoop l f).chain = s.chain := rfl
@[simp] theorem State.modLoop_clocks (s : State) (l : Fin 8) (f : Loop → Loop) : (s.modLoop l f).clocks = s.clocks := rfl
@[simp] theorem State.modLoop_spread (s : State) (l : Fin 8) (f : Loop → Loop) : (s.modLoop l f).spread = s.spread := rfl
@[simp] theorem State.modLoop_ckout (s : State) (l : Fin 8) (f : Loop → Loop) : (s.modLoop l f).ckout = s.ckout := rfl
@[simp] theorem State.modLoop_power (s : State) (l : Fin 8) (f : Loop → Loop) : (s.modLoop l f).power = s.power := rfl
@[simp] theorem State.modLoop_rst (s : State) (l : Fin 8) (f : Loop → Loop) : (s.modLoop l f).rst = s.rst := rfl
@[simp] theorem State.modLoop_boot (s : State) (l : Fin 8) (f : Loop → Loop) : (s.modLoop l f).boot = s.boot := rfl
@[simp] theorem State.modLoop_unit (s : State) (l : Fin 8) (f : Loop → Loop) : (s.modLoop l f).unit = s.unit := rfl
@[simp] theorem State.modLoop_manil (s : State) (l : Fin 8) (f : Loop → Loop) : (s.modLoop l f).manil = s.manil := rfl
@[simp] theorem State.modLoop_motion (s : State) (l : Fin 8) (f : Loop → Loop) : (s.modLoop l f).motion = s.motion := rfl
@[simp] theorem State.modLoop_engine (s : State) (l : Fin 8) (f : Loop → Loop) : (s.modLoop l f).engine = s.engine := rfl
@[simp] theorem State.modLoop_sol (s : State) (l : Fin 8) (f : Loop → Loop) : (s.modLoop l f).sol = s.sol := rfl
@[simp] theorem State.modLoop_pwm (s : State) (l : Fin 8) (f : Loop → Loop) : (s.modLoop l f).pwm = s.pwm := rfl
@[simp] theorem State.modLoop_pilot_loops (s : State) (l : Fin 8) (f : Loop → Loop) : (s.modLoop l f).pilot.loops = upd s.pilot.loops l f := rfl
@[simp] theorem State.modLoop_pilot_evt (s : State) (l : Fin 8) (f : Loop → Loop) : (s.modLoop l f).pilot.evt = s.pilot.evt := rfl
@[simp] theorem State.modLoop_pilot_traces (s : State) (l : Fin 8) (f : Loop → Loop) : (s.modLoop l f).pilot.traces = s.pilot.traces := rfl
@[simp] theorem State.modLoop_pilot_ain (s : State) (l : Fin 8) (f : Loop → Loop) : (s.modLoop l f).pilot.ain = s.pilot.ain := rfl
@[simp] theorem State.modLoop_pilot_ainNext (s : State) (l : Fin 8) (f : Loop → Loop) : (s.modLoop l f).pilot.ainNext = s.pilot.ainNext := rfl
@[simp] theorem State.modLoop_safety (s : State) (l : Fin 8) (f : Loop → Loop) : (s.modLoop l f).safety = s.safety := rfl
@[simp] theorem State.modLoop_recorder (s : State) (l : Fin 8) (f : Loop → Loop) : (s.modLoop l f).recorder = s.recorder := rfl
@[simp] theorem State.modLoop_owner (s : State) (l : Fin 8) (f : Loop → Loop) : (s.modLoop l f).owner = s.owner := rfl
@[simp] theorem State.modLoop_cal (s : State) (l : Fin 8) (f : Loop → Loop) : (s.modLoop l f).cal = s.cal := rfl
@[simp] theorem State.modLoop_nvm (s : State) (l : Fin 8) (f : Loop → Loop) : (s.modLoop l f).nvm = s.nvm := rfl
@[simp] theorem State.modLoop_settle (s : State) (l : Fin 8) (f : Loop → Loop) : (s.modLoop l f).settle = s.settle := rfl
@[simp] theorem State.modLoop_pending (s : State) (l : Fin 8) (f : Loop → Loop) : (s.modLoop l f).pending = s.pending := rfl

/-! `modTrace` -/

@[simp] theorem State.modTrace_phase (s : State) (b : Fin 4) (f : Trace → Trace) : (s.modTrace b f).phase = s.phase := rfl
@[simp] theorem State.modTrace_regs (s : State) (b : Fin 4) (f : Trace → Trace) : (s.modTrace b f).regs = s.regs := rfl
@[simp] theorem State.modTrace_time (s : State) (b : Fin 4) (f : Trace → Trace) : (s.modTrace b f).time = s.time := rfl
@[simp] theorem State.modTrace_clk (s : State) (b : Fin 4) (f : Trace → Trace) : (s.modTrace b f).clk = s.clk := rfl
@[simp] theorem State.modTrace_cd08 (s : State) (b : Fin 4) (f : Trace → Trace) : (s.modTrace b f).cd08 = s.cd08 := rfl
@[simp] theorem State.modTrace_chain (s : State) (b : Fin 4) (f : Trace → Trace) : (s.modTrace b f).chain = s.chain := rfl
@[simp] theorem State.modTrace_clocks (s : State) (b : Fin 4) (f : Trace → Trace) : (s.modTrace b f).clocks = s.clocks := rfl
@[simp] theorem State.modTrace_spread (s : State) (b : Fin 4) (f : Trace → Trace) : (s.modTrace b f).spread = s.spread := rfl
@[simp] theorem State.modTrace_ckout (s : State) (b : Fin 4) (f : Trace → Trace) : (s.modTrace b f).ckout = s.ckout := rfl
@[simp] theorem State.modTrace_power (s : State) (b : Fin 4) (f : Trace → Trace) : (s.modTrace b f).power = s.power := rfl
@[simp] theorem State.modTrace_rst (s : State) (b : Fin 4) (f : Trace → Trace) : (s.modTrace b f).rst = s.rst := rfl
@[simp] theorem State.modTrace_boot (s : State) (b : Fin 4) (f : Trace → Trace) : (s.modTrace b f).boot = s.boot := rfl
@[simp] theorem State.modTrace_unit (s : State) (b : Fin 4) (f : Trace → Trace) : (s.modTrace b f).unit = s.unit := rfl
@[simp] theorem State.modTrace_manil (s : State) (b : Fin 4) (f : Trace → Trace) : (s.modTrace b f).manil = s.manil := rfl
@[simp] theorem State.modTrace_motion (s : State) (b : Fin 4) (f : Trace → Trace) : (s.modTrace b f).motion = s.motion := rfl
@[simp] theorem State.modTrace_engine (s : State) (b : Fin 4) (f : Trace → Trace) : (s.modTrace b f).engine = s.engine := rfl
@[simp] theorem State.modTrace_sol (s : State) (b : Fin 4) (f : Trace → Trace) : (s.modTrace b f).sol = s.sol := rfl
@[simp] theorem State.modTrace_pwm (s : State) (b : Fin 4) (f : Trace → Trace) : (s.modTrace b f).pwm = s.pwm := rfl
@[simp] theorem State.modTrace_pilot_loops (s : State) (b : Fin 4) (f : Trace → Trace) : (s.modTrace b f).pilot.loops = s.pilot.loops := rfl
@[simp] theorem State.modTrace_pilot_evt (s : State) (b : Fin 4) (f : Trace → Trace) : (s.modTrace b f).pilot.evt = s.pilot.evt := rfl
@[simp] theorem State.modTrace_pilot_traces (s : State) (b : Fin 4) (f : Trace → Trace) : (s.modTrace b f).pilot.traces = upd s.pilot.traces b f := rfl
@[simp] theorem State.modTrace_pilot_ain (s : State) (b : Fin 4) (f : Trace → Trace) : (s.modTrace b f).pilot.ain = s.pilot.ain := rfl
@[simp] theorem State.modTrace_pilot_ainNext (s : State) (b : Fin 4) (f : Trace → Trace) : (s.modTrace b f).pilot.ainNext = s.pilot.ainNext := rfl
@[simp] theorem State.modTrace_safety (s : State) (b : Fin 4) (f : Trace → Trace) : (s.modTrace b f).safety = s.safety := rfl
@[simp] theorem State.modTrace_recorder (s : State) (b : Fin 4) (f : Trace → Trace) : (s.modTrace b f).recorder = s.recorder := rfl
@[simp] theorem State.modTrace_owner (s : State) (b : Fin 4) (f : Trace → Trace) : (s.modTrace b f).owner = s.owner := rfl
@[simp] theorem State.modTrace_cal (s : State) (b : Fin 4) (f : Trace → Trace) : (s.modTrace b f).cal = s.cal := rfl
@[simp] theorem State.modTrace_nvm (s : State) (b : Fin 4) (f : Trace → Trace) : (s.modTrace b f).nvm = s.nvm := rfl
@[simp] theorem State.modTrace_settle (s : State) (b : Fin 4) (f : Trace → Trace) : (s.modTrace b f).settle = s.settle := rfl
@[simp] theorem State.modTrace_pending (s : State) (b : Fin 4) (f : Trace → Trace) : (s.modTrace b f).pending = s.pending := rfl

/-! `modPair` -/

@[simp] theorem State.modPair_phase (s : State) (p : Fin 4) (f : Pair → Pair) : (s.modPair p f).phase = s.phase := rfl
@[simp] theorem State.modPair_regs (s : State) (p : Fin 4) (f : Pair → Pair) : (s.modPair p f).regs = s.regs := rfl
@[simp] theorem State.modPair_time (s : State) (p : Fin 4) (f : Pair → Pair) : (s.modPair p f).time = s.time := rfl
@[simp] theorem State.modPair_clk (s : State) (p : Fin 4) (f : Pair → Pair) : (s.modPair p f).clk = s.clk := rfl
@[simp] theorem State.modPair_cd08 (s : State) (p : Fin 4) (f : Pair → Pair) : (s.modPair p f).cd08 = s.cd08 := rfl
@[simp] theorem State.modPair_chain (s : State) (p : Fin 4) (f : Pair → Pair) : (s.modPair p f).chain = s.chain := rfl
@[simp] theorem State.modPair_clocks (s : State) (p : Fin 4) (f : Pair → Pair) : (s.modPair p f).clocks = s.clocks := rfl
@[simp] theorem State.modPair_spread (s : State) (p : Fin 4) (f : Pair → Pair) : (s.modPair p f).spread = s.spread := rfl
@[simp] theorem State.modPair_ckout (s : State) (p : Fin 4) (f : Pair → Pair) : (s.modPair p f).ckout = s.ckout := rfl
@[simp] theorem State.modPair_power (s : State) (p : Fin 4) (f : Pair → Pair) : (s.modPair p f).power = s.power := rfl
@[simp] theorem State.modPair_rst (s : State) (p : Fin 4) (f : Pair → Pair) : (s.modPair p f).rst = s.rst := rfl
@[simp] theorem State.modPair_boot (s : State) (p : Fin 4) (f : Pair → Pair) : (s.modPair p f).boot = s.boot := rfl
@[simp] theorem State.modPair_unit (s : State) (p : Fin 4) (f : Pair → Pair) : (s.modPair p f).unit = s.unit := rfl
@[simp] theorem State.modPair_manil (s : State) (p : Fin 4) (f : Pair → Pair) : (s.modPair p f).manil = s.manil := rfl
@[simp] theorem State.modPair_motion (s : State) (p : Fin 4) (f : Pair → Pair) : (s.modPair p f).motion = s.motion := rfl
@[simp] theorem State.modPair_engine (s : State) (p : Fin 4) (f : Pair → Pair) : (s.modPair p f).engine = s.engine := rfl
@[simp] theorem State.modPair_sol (s : State) (p : Fin 4) (f : Pair → Pair) : (s.modPair p f).sol = s.sol := rfl
@[simp] theorem State.modPair_pwm (s : State) (p : Fin 4) (f : Pair → Pair) : (s.modPair p f).pwm = s.pwm := rfl
@[simp] theorem State.modPair_pilot (s : State) (p : Fin 4) (f : Pair → Pair) : (s.modPair p f).pilot = s.pilot := rfl
@[simp] theorem State.modPair_safety_pairs (s : State) (p : Fin 4) (f : Pair → Pair) : (s.modPair p f).safety.pairs = upd s.safety.pairs p f := rfl
@[simp] theorem State.modPair_safety_evt (s : State) (p : Fin 4) (f : Pair → Pair) : (s.modPair p f).safety.evt = s.safety.evt := rfl
@[simp] theorem State.modPair_recorder (s : State) (p : Fin 4) (f : Pair → Pair) : (s.modPair p f).recorder = s.recorder := rfl
@[simp] theorem State.modPair_owner (s : State) (p : Fin 4) (f : Pair → Pair) : (s.modPair p f).owner = s.owner := rfl
@[simp] theorem State.modPair_cal (s : State) (p : Fin 4) (f : Pair → Pair) : (s.modPair p f).cal = s.cal := rfl
@[simp] theorem State.modPair_nvm (s : State) (p : Fin 4) (f : Pair → Pair) : (s.modPair p f).nvm = s.nvm := rfl
@[simp] theorem State.modPair_settle (s : State) (p : Fin 4) (f : Pair → Pair) : (s.modPair p f).settle = s.settle := rfl
@[simp] theorem State.modPair_pending (s : State) (p : Fin 4) (f : Pair → Pair) : (s.modPair p f).pending = s.pending := rfl

/-! `modFin` -/

@[simp] theorem State.modFin_phase (s : State) (n : Fin 8) (f : FinState → FinState) : (s.modFin n f).phase = s.phase := rfl
@[simp] theorem State.modFin_regs (s : State) (n : Fin 8) (f : FinState → FinState) : (s.modFin n f).regs = s.regs := rfl
@[simp] theorem State.modFin_time (s : State) (n : Fin 8) (f : FinState → FinState) : (s.modFin n f).time = s.time := rfl
@[simp] theorem State.modFin_clk (s : State) (n : Fin 8) (f : FinState → FinState) : (s.modFin n f).clk = s.clk := rfl
@[simp] theorem State.modFin_cd08 (s : State) (n : Fin 8) (f : FinState → FinState) : (s.modFin n f).cd08 = s.cd08 := rfl
@[simp] theorem State.modFin_chain (s : State) (n : Fin 8) (f : FinState → FinState) : (s.modFin n f).chain = s.chain := rfl
@[simp] theorem State.modFin_clocks (s : State) (n : Fin 8) (f : FinState → FinState) : (s.modFin n f).clocks = s.clocks := rfl
@[simp] theorem State.modFin_spread (s : State) (n : Fin 8) (f : FinState → FinState) : (s.modFin n f).spread = s.spread := rfl
@[simp] theorem State.modFin_ckout (s : State) (n : Fin 8) (f : FinState → FinState) : (s.modFin n f).ckout = s.ckout := rfl
@[simp] theorem State.modFin_power (s : State) (n : Fin 8) (f : FinState → FinState) : (s.modFin n f).power = s.power := rfl
@[simp] theorem State.modFin_rst (s : State) (n : Fin 8) (f : FinState → FinState) : (s.modFin n f).rst = s.rst := rfl
@[simp] theorem State.modFin_boot (s : State) (n : Fin 8) (f : FinState → FinState) : (s.modFin n f).boot = s.boot := rfl
@[simp] theorem State.modFin_unit (s : State) (n : Fin 8) (f : FinState → FinState) : (s.modFin n f).unit = s.unit := rfl
@[simp] theorem State.modFin_manil (s : State) (n : Fin 8) (f : FinState → FinState) : (s.modFin n f).manil = s.manil := rfl
@[simp] theorem State.modFin_motion_fins (s : State) (n : Fin 8) (f : FinState → FinState) : (s.modFin n f).motion.fins = upd s.motion.fins n f := rfl
@[simp] theorem State.modFin_motion_finEvt (s : State) (n : Fin 8) (f : FinState → FinState) : (s.modFin n f).motion.finEvt = s.motion.finEvt := rfl
@[simp] theorem State.modFin_motion_encs (s : State) (n : Fin 8) (f : FinState → FinState) : (s.modFin n f).motion.encs = s.motion.encs := rfl
@[simp] theorem State.modFin_motion_encEvt (s : State) (n : Fin 8) (f : FinState → FinState) : (s.modFin n f).motion.encEvt = s.motion.encEvt := rfl
@[simp] theorem State.modFin_motion_pos (s : State) (n : Fin 8) (f : FinState → FinState) : (s.modFin n f).motion.pos = s.motion.pos := rfl
@[simp] theorem State.modFin_motion_rem (s : State) (n : Fin 8) (f : FinState → FinState) : (s.modFin n f).motion.rem = s.motion.rem := rfl
@[simp] theorem State.modFin_motion_turn (s : State) (n : Fin 8) (f : FinState → FinState) : (s.modFin n f).motion.turn = s.motion.turn := rfl
@[simp] theorem State.modFin_motion_dirRev (s : State) (n : Fin 8) (f : FinState → FinState) : (s.modFin n f).motion.dirRev = s.motion.dirRev := rfl
@[simp] theorem State.modFin_motion_pairs (s : State) (n : Fin 8) (f : FinState → FinState) : (s.modFin n f).motion.pairs = s.motion.pairs := rfl
@[simp] theorem State.modFin_motion_lastPair (s : State) (n : Fin 8) (f : FinState → FinState) : (s.modFin n f).motion.lastPair = s.motion.lastPair := rfl
@[simp] theorem State.modFin_motion_vel (s : State) (n : Fin 8) (f : FinState → FinState) : (s.modFin n f).motion.vel = s.motion.vel := rfl
@[simp] theorem State.modFin_motion_acc (s : State) (n : Fin 8) (f : FinState → FinState) : (s.modFin n f).motion.acc = s.motion.acc := rfl
@[simp] theorem State.modFin_motion_yaw (s : State) (n : Fin 8) (f : FinState → FinState) : (s.modFin n f).motion.yaw = s.motion.yaw := rfl
@[simp] theorem State.modFin_motion_moving (s : State) (n : Fin 8) (f : FinState → FinState) : (s.modFin n f).motion.moving = s.motion.moving := rfl
@[simp] theorem State.modFin_motion_speedStale (s : State) (n : Fin 8) (f : FinState → FinState) : (s.modFin n f).motion.speedStale = s.motion.speedStale := rfl
@[simp] theorem State.modFin_motion_speed (s : State) (n : Fin 8) (f : FinState → FinState) : (s.modFin n f).motion.speed = s.motion.speed := rfl
@[simp] theorem State.modFin_motion_speedPrev (s : State) (n : Fin 8) (f : FinState → FinState) : (s.modFin n f).motion.speedPrev = s.motion.speedPrev := rfl
@[simp] theorem State.modFin_motion_speedRestart (s : State) (n : Fin 8) (f : FinState → FinState) : (s.modFin n f).motion.speedRestart = s.motion.speedRestart := rfl
@[simp] theorem State.modFin_motion_speedSince (s : State) (n : Fin 8) (f : FinState → FinState) : (s.modFin n f).motion.speedSince = s.motion.speedSince := rfl
@[simp] theorem State.modFin_motion_speedTold (s : State) (n : Fin 8) (f : FinState → FinState) : (s.modFin n f).motion.speedTold = s.motion.speedTold := rfl
@[simp] theorem State.modFin_motion_evt (s : State) (n : Fin 8) (f : FinState → FinState) : (s.modFin n f).motion.evt = s.motion.evt := rfl
@[simp] theorem State.modFin_motion_switched (s : State) (n : Fin 8) (f : FinState → FinState) : (s.modFin n f).motion.switched = s.motion.switched := rfl
@[simp] theorem State.modFin_motion_presetDue (s : State) (n : Fin 8) (f : FinState → FinState) : (s.modFin n f).motion.presetDue = s.motion.presetDue := rfl
@[simp] theorem State.modFin_engine (s : State) (n : Fin 8) (f : FinState → FinState) : (s.modFin n f).engine = s.engine := rfl
@[simp] theorem State.modFin_sol (s : State) (n : Fin 8) (f : FinState → FinState) : (s.modFin n f).sol = s.sol := rfl
@[simp] theorem State.modFin_pwm (s : State) (n : Fin 8) (f : FinState → FinState) : (s.modFin n f).pwm = s.pwm := rfl
@[simp] theorem State.modFin_pilot (s : State) (n : Fin 8) (f : FinState → FinState) : (s.modFin n f).pilot = s.pilot := rfl
@[simp] theorem State.modFin_safety (s : State) (n : Fin 8) (f : FinState → FinState) : (s.modFin n f).safety = s.safety := rfl
@[simp] theorem State.modFin_recorder (s : State) (n : Fin 8) (f : FinState → FinState) : (s.modFin n f).recorder = s.recorder := rfl
@[simp] theorem State.modFin_owner (s : State) (n : Fin 8) (f : FinState → FinState) : (s.modFin n f).owner = s.owner := rfl
@[simp] theorem State.modFin_cal (s : State) (n : Fin 8) (f : FinState → FinState) : (s.modFin n f).cal = s.cal := rfl
@[simp] theorem State.modFin_nvm (s : State) (n : Fin 8) (f : FinState → FinState) : (s.modFin n f).nvm = s.nvm := rfl
@[simp] theorem State.modFin_settle (s : State) (n : Fin 8) (f : FinState → FinState) : (s.modFin n f).settle = s.settle := rfl
@[simp] theorem State.modFin_pending (s : State) (n : Fin 8) (f : FinState → FinState) : (s.modFin n f).pending = s.pending := rfl

/-! `modEnc` -/

@[simp] theorem State.modEnc_phase (s : State) (p : Fin 4) (f : EncState → EncState) : (s.modEnc p f).phase = s.phase := rfl
@[simp] theorem State.modEnc_regs (s : State) (p : Fin 4) (f : EncState → EncState) : (s.modEnc p f).regs = s.regs := rfl
@[simp] theorem State.modEnc_time (s : State) (p : Fin 4) (f : EncState → EncState) : (s.modEnc p f).time = s.time := rfl
@[simp] theorem State.modEnc_clk (s : State) (p : Fin 4) (f : EncState → EncState) : (s.modEnc p f).clk = s.clk := rfl
@[simp] theorem State.modEnc_cd08 (s : State) (p : Fin 4) (f : EncState → EncState) : (s.modEnc p f).cd08 = s.cd08 := rfl
@[simp] theorem State.modEnc_chain (s : State) (p : Fin 4) (f : EncState → EncState) : (s.modEnc p f).chain = s.chain := rfl
@[simp] theorem State.modEnc_clocks (s : State) (p : Fin 4) (f : EncState → EncState) : (s.modEnc p f).clocks = s.clocks := rfl
@[simp] theorem State.modEnc_spread (s : State) (p : Fin 4) (f : EncState → EncState) : (s.modEnc p f).spread = s.spread := rfl
@[simp] theorem State.modEnc_ckout (s : State) (p : Fin 4) (f : EncState → EncState) : (s.modEnc p f).ckout = s.ckout := rfl
@[simp] theorem State.modEnc_power (s : State) (p : Fin 4) (f : EncState → EncState) : (s.modEnc p f).power = s.power := rfl
@[simp] theorem State.modEnc_rst (s : State) (p : Fin 4) (f : EncState → EncState) : (s.modEnc p f).rst = s.rst := rfl
@[simp] theorem State.modEnc_boot (s : State) (p : Fin 4) (f : EncState → EncState) : (s.modEnc p f).boot = s.boot := rfl
@[simp] theorem State.modEnc_unit (s : State) (p : Fin 4) (f : EncState → EncState) : (s.modEnc p f).unit = s.unit := rfl
@[simp] theorem State.modEnc_manil (s : State) (p : Fin 4) (f : EncState → EncState) : (s.modEnc p f).manil = s.manil := rfl
@[simp] theorem State.modEnc_motion_fins (s : State) (p : Fin 4) (f : EncState → EncState) : (s.modEnc p f).motion.fins = s.motion.fins := rfl
@[simp] theorem State.modEnc_motion_finEvt (s : State) (p : Fin 4) (f : EncState → EncState) : (s.modEnc p f).motion.finEvt = s.motion.finEvt := rfl
@[simp] theorem State.modEnc_motion_encs (s : State) (p : Fin 4) (f : EncState → EncState) : (s.modEnc p f).motion.encs = upd s.motion.encs p f := rfl
@[simp] theorem State.modEnc_motion_encEvt (s : State) (p : Fin 4) (f : EncState → EncState) : (s.modEnc p f).motion.encEvt = s.motion.encEvt := rfl
@[simp] theorem State.modEnc_motion_pos (s : State) (p : Fin 4) (f : EncState → EncState) : (s.modEnc p f).motion.pos = s.motion.pos := rfl
@[simp] theorem State.modEnc_motion_rem (s : State) (p : Fin 4) (f : EncState → EncState) : (s.modEnc p f).motion.rem = s.motion.rem := rfl
@[simp] theorem State.modEnc_motion_turn (s : State) (p : Fin 4) (f : EncState → EncState) : (s.modEnc p f).motion.turn = s.motion.turn := rfl
@[simp] theorem State.modEnc_motion_dirRev (s : State) (p : Fin 4) (f : EncState → EncState) : (s.modEnc p f).motion.dirRev = s.motion.dirRev := rfl
@[simp] theorem State.modEnc_motion_pairs (s : State) (p : Fin 4) (f : EncState → EncState) : (s.modEnc p f).motion.pairs = s.motion.pairs := rfl
@[simp] theorem State.modEnc_motion_lastPair (s : State) (p : Fin 4) (f : EncState → EncState) : (s.modEnc p f).motion.lastPair = s.motion.lastPair := rfl
@[simp] theorem State.modEnc_motion_vel (s : State) (p : Fin 4) (f : EncState → EncState) : (s.modEnc p f).motion.vel = s.motion.vel := rfl
@[simp] theorem State.modEnc_motion_acc (s : State) (p : Fin 4) (f : EncState → EncState) : (s.modEnc p f).motion.acc = s.motion.acc := rfl
@[simp] theorem State.modEnc_motion_yaw (s : State) (p : Fin 4) (f : EncState → EncState) : (s.modEnc p f).motion.yaw = s.motion.yaw := rfl
@[simp] theorem State.modEnc_motion_moving (s : State) (p : Fin 4) (f : EncState → EncState) : (s.modEnc p f).motion.moving = s.motion.moving := rfl
@[simp] theorem State.modEnc_motion_speedStale (s : State) (p : Fin 4) (f : EncState → EncState) : (s.modEnc p f).motion.speedStale = s.motion.speedStale := rfl
@[simp] theorem State.modEnc_motion_speed (s : State) (p : Fin 4) (f : EncState → EncState) : (s.modEnc p f).motion.speed = s.motion.speed := rfl
@[simp] theorem State.modEnc_motion_speedPrev (s : State) (p : Fin 4) (f : EncState → EncState) : (s.modEnc p f).motion.speedPrev = s.motion.speedPrev := rfl
@[simp] theorem State.modEnc_motion_speedRestart (s : State) (p : Fin 4) (f : EncState → EncState) : (s.modEnc p f).motion.speedRestart = s.motion.speedRestart := rfl
@[simp] theorem State.modEnc_motion_speedSince (s : State) (p : Fin 4) (f : EncState → EncState) : (s.modEnc p f).motion.speedSince = s.motion.speedSince := rfl
@[simp] theorem State.modEnc_motion_speedTold (s : State) (p : Fin 4) (f : EncState → EncState) : (s.modEnc p f).motion.speedTold = s.motion.speedTold := rfl
@[simp] theorem State.modEnc_motion_evt (s : State) (p : Fin 4) (f : EncState → EncState) : (s.modEnc p f).motion.evt = s.motion.evt := rfl
@[simp] theorem State.modEnc_motion_switched (s : State) (p : Fin 4) (f : EncState → EncState) : (s.modEnc p f).motion.switched = s.motion.switched := rfl
@[simp] theorem State.modEnc_motion_presetDue (s : State) (p : Fin 4) (f : EncState → EncState) : (s.modEnc p f).motion.presetDue = s.motion.presetDue := rfl
@[simp] theorem State.modEnc_engine (s : State) (p : Fin 4) (f : EncState → EncState) : (s.modEnc p f).engine = s.engine := rfl
@[simp] theorem State.modEnc_sol (s : State) (p : Fin 4) (f : EncState → EncState) : (s.modEnc p f).sol = s.sol := rfl
@[simp] theorem State.modEnc_pwm (s : State) (p : Fin 4) (f : EncState → EncState) : (s.modEnc p f).pwm = s.pwm := rfl
@[simp] theorem State.modEnc_pilot (s : State) (p : Fin 4) (f : EncState → EncState) : (s.modEnc p f).pilot = s.pilot := rfl
@[simp] theorem State.modEnc_safety (s : State) (p : Fin 4) (f : EncState → EncState) : (s.modEnc p f).safety = s.safety := rfl
@[simp] theorem State.modEnc_recorder (s : State) (p : Fin 4) (f : EncState → EncState) : (s.modEnc p f).recorder = s.recorder := rfl
@[simp] theorem State.modEnc_owner (s : State) (p : Fin 4) (f : EncState → EncState) : (s.modEnc p f).owner = s.owner := rfl
@[simp] theorem State.modEnc_cal (s : State) (p : Fin 4) (f : EncState → EncState) : (s.modEnc p f).cal = s.cal := rfl
@[simp] theorem State.modEnc_nvm (s : State) (p : Fin 4) (f : EncState → EncState) : (s.modEnc p f).nvm = s.nvm := rfl
@[simp] theorem State.modEnc_settle (s : State) (p : Fin 4) (f : EncState → EncState) : (s.modEnc p f).settle = s.settle := rfl
@[simp] theorem State.modEnc_pending (s : State) (p : Fin 4) (f : EncState → EncState) : (s.modEnc p f).pending = s.pending := rfl

/-! `modBoost` -/

@[simp] theorem State.modBoost_phase (s : State) (f : Boost → Boost) : (s.modBoost f).phase = s.phase := rfl
@[simp] theorem State.modBoost_regs (s : State) (f : Boost → Boost) : (s.modBoost f).regs = s.regs := rfl
@[simp] theorem State.modBoost_time (s : State) (f : Boost → Boost) : (s.modBoost f).time = s.time := rfl
@[simp] theorem State.modBoost_clk (s : State) (f : Boost → Boost) : (s.modBoost f).clk = s.clk := rfl
@[simp] theorem State.modBoost_cd08 (s : State) (f : Boost → Boost) : (s.modBoost f).cd08 = s.cd08 := rfl
@[simp] theorem State.modBoost_chain (s : State) (f : Boost → Boost) : (s.modBoost f).chain = s.chain := rfl
@[simp] theorem State.modBoost_clocks (s : State) (f : Boost → Boost) : (s.modBoost f).clocks = s.clocks := rfl
@[simp] theorem State.modBoost_spread (s : State) (f : Boost → Boost) : (s.modBoost f).spread = s.spread := rfl
@[simp] theorem State.modBoost_ckout (s : State) (f : Boost → Boost) : (s.modBoost f).ckout = s.ckout := rfl
@[simp] theorem State.modBoost_power (s : State) (f : Boost → Boost) : (s.modBoost f).power = s.power := rfl
@[simp] theorem State.modBoost_rst (s : State) (f : Boost → Boost) : (s.modBoost f).rst = s.rst := rfl
@[simp] theorem State.modBoost_boot (s : State) (f : Boost → Boost) : (s.modBoost f).boot = s.boot := rfl
@[simp] theorem State.modBoost_unit (s : State) (f : Boost → Boost) : (s.modBoost f).unit = s.unit := rfl
@[simp] theorem State.modBoost_manil (s : State) (f : Boost → Boost) : (s.modBoost f).manil = s.manil := rfl
@[simp] theorem State.modBoost_motion (s : State) (f : Boost → Boost) : (s.modBoost f).motion = s.motion := rfl
@[simp] theorem State.modBoost_engine (s : State) (f : Boost → Boost) : (s.modBoost f).engine = s.engine := rfl
@[simp] theorem State.modBoost_sol_chans (s : State) (f : Boost → Boost) : (s.modBoost f).sol.chans = s.sol.chans := rfl
@[simp] theorem State.modBoost_sol_banks (s : State) (f : Boost → Boost) : (s.modBoost f).sol.banks = s.sol.banks := rfl
@[simp] theorem State.modBoost_sol_boost (s : State) (f : Boost → Boost) : (s.modBoost f).sol.boost = f s.sol.boost := rfl
@[simp] theorem State.modBoost_pwm (s : State) (f : Boost → Boost) : (s.modBoost f).pwm = s.pwm := rfl
@[simp] theorem State.modBoost_pilot (s : State) (f : Boost → Boost) : (s.modBoost f).pilot = s.pilot := rfl
@[simp] theorem State.modBoost_safety (s : State) (f : Boost → Boost) : (s.modBoost f).safety = s.safety := rfl
@[simp] theorem State.modBoost_recorder (s : State) (f : Boost → Boost) : (s.modBoost f).recorder = s.recorder := rfl
@[simp] theorem State.modBoost_owner (s : State) (f : Boost → Boost) : (s.modBoost f).owner = s.owner := rfl
@[simp] theorem State.modBoost_cal (s : State) (f : Boost → Boost) : (s.modBoost f).cal = s.cal := rfl
@[simp] theorem State.modBoost_nvm (s : State) (f : Boost → Boost) : (s.modBoost f).nvm = s.nvm := rfl
@[simp] theorem State.modBoost_settle (s : State) (f : Boost → Boost) : (s.modBoost f).settle = s.settle := rfl
@[simp] theorem State.modBoost_pending (s : State) (f : Boost → Boost) : (s.modBoost f).pending = s.pending := rfl

/-! `modPort` -/

@[simp] theorem State.modPort_phase (s : State) (p : Port) (f : PortState → PortState) : (s.modPort p f).phase = s.phase := rfl
@[simp] theorem State.modPort_regs (s : State) (p : Port) (f : PortState → PortState) : (s.modPort p f).regs = s.regs := rfl
@[simp] theorem State.modPort_time (s : State) (p : Port) (f : PortState → PortState) : (s.modPort p f).time = s.time := rfl
@[simp] theorem State.modPort_clk (s : State) (p : Port) (f : PortState → PortState) : (s.modPort p f).clk = s.clk := rfl
@[simp] theorem State.modPort_cd08 (s : State) (p : Port) (f : PortState → PortState) : (s.modPort p f).cd08 = s.cd08 := rfl
@[simp] theorem State.modPort_clocks (s : State) (p : Port) (f : PortState → PortState) : (s.modPort p f).clocks = s.clocks := rfl
@[simp] theorem State.modPort_spread (s : State) (p : Port) (f : PortState → PortState) : (s.modPort p f).spread = s.spread := rfl
@[simp] theorem State.modPort_ckout (s : State) (p : Port) (f : PortState → PortState) : (s.modPort p f).ckout = s.ckout := rfl
@[simp] theorem State.modPort_power (s : State) (p : Port) (f : PortState → PortState) : (s.modPort p f).power = s.power := rfl
@[simp] theorem State.modPort_rst (s : State) (p : Port) (f : PortState → PortState) : (s.modPort p f).rst = s.rst := rfl
@[simp] theorem State.modPort_boot (s : State) (p : Port) (f : PortState → PortState) : (s.modPort p f).boot = s.boot := rfl
@[simp] theorem State.modPort_unit (s : State) (p : Port) (f : PortState → PortState) : (s.modPort p f).unit = s.unit := rfl
@[simp] theorem State.modPort_manil (s : State) (p : Port) (f : PortState → PortState) : (s.modPort p f).manil = s.manil := rfl
@[simp] theorem State.modPort_motion (s : State) (p : Port) (f : PortState → PortState) : (s.modPort p f).motion = s.motion := rfl
@[simp] theorem State.modPort_engine (s : State) (p : Port) (f : PortState → PortState) : (s.modPort p f).engine = s.engine := rfl
@[simp] theorem State.modPort_sol (s : State) (p : Port) (f : PortState → PortState) : (s.modPort p f).sol = s.sol := rfl
@[simp] theorem State.modPort_pwm (s : State) (p : Port) (f : PortState → PortState) : (s.modPort p f).pwm = s.pwm := rfl
@[simp] theorem State.modPort_pilot (s : State) (p : Port) (f : PortState → PortState) : (s.modPort p f).pilot = s.pilot := rfl
@[simp] theorem State.modPort_safety (s : State) (p : Port) (f : PortState → PortState) : (s.modPort p f).safety = s.safety := rfl
@[simp] theorem State.modPort_recorder (s : State) (p : Port) (f : PortState → PortState) : (s.modPort p f).recorder = s.recorder := rfl
@[simp] theorem State.modPort_owner (s : State) (p : Port) (f : PortState → PortState) : (s.modPort p f).owner = s.owner := rfl
@[simp] theorem State.modPort_cal (s : State) (p : Port) (f : PortState → PortState) : (s.modPort p f).cal = s.cal := rfl
@[simp] theorem State.modPort_nvm (s : State) (p : Port) (f : PortState → PortState) : (s.modPort p f).nvm = s.nvm := rfl
@[simp] theorem State.modPort_settle (s : State) (p : Port) (f : PortState → PortState) : (s.modPort p f).settle = s.settle := rfl
@[simp] theorem State.modPort_pending (s : State) (p : Port) (f : PortState → PortState) : (s.modPort p f).pending = s.pending := rfl

/-! `record`: only the recorder changes. -/

@[simp] theorem State.record_phase (s : State) (code source : Nat) (data : Word) (cont : Option Word) : (s.record code source data cont).phase = s.phase := rfl
@[simp] theorem State.record_regs (s : State) (code source : Nat) (data : Word) (cont : Option Word) : (s.record code source data cont).regs = s.regs := rfl
@[simp] theorem State.record_time (s : State) (code source : Nat) (data : Word) (cont : Option Word) : (s.record code source data cont).time = s.time := rfl
@[simp] theorem State.record_clk (s : State) (code source : Nat) (data : Word) (cont : Option Word) : (s.record code source data cont).clk = s.clk := rfl
@[simp] theorem State.record_cd08 (s : State) (code source : Nat) (data : Word) (cont : Option Word) : (s.record code source data cont).cd08 = s.cd08 := rfl
@[simp] theorem State.record_chain (s : State) (code source : Nat) (data : Word) (cont : Option Word) : (s.record code source data cont).chain = s.chain := rfl
@[simp] theorem State.record_clocks (s : State) (code source : Nat) (data : Word) (cont : Option Word) : (s.record code source data cont).clocks = s.clocks := rfl
@[simp] theorem State.record_spread (s : State) (code source : Nat) (data : Word) (cont : Option Word) : (s.record code source data cont).spread = s.spread := rfl
@[simp] theorem State.record_ckout (s : State) (code source : Nat) (data : Word) (cont : Option Word) : (s.record code source data cont).ckout = s.ckout := rfl
@[simp] theorem State.record_power (s : State) (code source : Nat) (data : Word) (cont : Option Word) : (s.record code source data cont).power = s.power := rfl
@[simp] theorem State.record_rst (s : State) (code source : Nat) (data : Word) (cont : Option Word) : (s.record code source data cont).rst = s.rst := rfl
@[simp] theorem State.record_boot (s : State) (code source : Nat) (data : Word) (cont : Option Word) : (s.record code source data cont).boot = s.boot := rfl
@[simp] theorem State.record_unit (s : State) (code source : Nat) (data : Word) (cont : Option Word) : (s.record code source data cont).unit = s.unit := rfl
@[simp] theorem State.record_manil (s : State) (code source : Nat) (data : Word) (cont : Option Word) : (s.record code source data cont).manil = s.manil := rfl
@[simp] theorem State.record_motion (s : State) (code source : Nat) (data : Word) (cont : Option Word) : (s.record code source data cont).motion = s.motion := rfl
@[simp] theorem State.record_engine (s : State) (code source : Nat) (data : Word) (cont : Option Word) : (s.record code source data cont).engine = s.engine := rfl
@[simp] theorem State.record_sol (s : State) (code source : Nat) (data : Word) (cont : Option Word) : (s.record code source data cont).sol = s.sol := rfl
@[simp] theorem State.record_pwm (s : State) (code source : Nat) (data : Word) (cont : Option Word) : (s.record code source data cont).pwm = s.pwm := rfl
@[simp] theorem State.record_pilot (s : State) (code source : Nat) (data : Word) (cont : Option Word) : (s.record code source data cont).pilot = s.pilot := rfl
@[simp] theorem State.record_safety (s : State) (code source : Nat) (data : Word) (cont : Option Word) : (s.record code source data cont).safety = s.safety := rfl
@[simp] theorem State.record_owner (s : State) (code source : Nat) (data : Word) (cont : Option Word) : (s.record code source data cont).owner = s.owner := rfl
@[simp] theorem State.record_cal (s : State) (code source : Nat) (data : Word) (cont : Option Word) : (s.record code source data cont).cal = s.cal := rfl
@[simp] theorem State.record_nvm (s : State) (code source : Nat) (data : Word) (cont : Option Word) : (s.record code source data cont).nvm = s.nvm := rfl
@[simp] theorem State.record_settle (s : State) (code source : Nat) (data : Word) (cont : Option Word) : (s.record code source data cont).settle = s.settle := rfl
@[simp] theorem State.record_pending (s : State) (code source : Nat) (data : Word) (cont : Option Word) : (s.record code source data cont).pending = s.pending := rfl

end Sys2Proof.Machine
end

