-- ==== Sys2Proof/Laws/KeptOps.lean ====
section
/-! SUPPORT. What is kept (Laws/Kept.lean) by the register file, the recorder, notices, replies, the wires and the named parts of State: one lemma for each operation. -/
namespace Sys2Proof.Machine

open Sys2Proof

variable {ws : List Instr} {sd : Bool} {s : State}

/-! ### Machine/Registers.lean -/

theorem State.setReg_kept (h : Kept ws sd s) (a : Nat) (v : Word) : Kept ws sd (State.setReg s a v) :=
  ⟨h.pending, ⟨RegFile.write_wf h.stores.regs a v, h.stores.chain, h.stores.manil, h.stores.motion, h.stores.recorder⟩, h.safe⟩


/-! ### Machine/Ops.lean -/

theorem State.record_kept (h : Kept ws sd s) (code source : Nat) (data : Word) (cont : Option Word := none) :
    Kept ws sd (State.record s code source data cont) :=
  h.upd ⟨rfl, rfl⟩ id id id fun hr => by
    split
    · exact Recorder.writeRepeat_bounded hr ..
    · exact Recorder.writeRate_bounded (Recorder.roll_bounded hr _) ..
    · exact Recorder.writeNew_bounded hr ..

theorem State.conSend_kept (h : Kept ws sd s) (line : String) : Kept ws sd (State.conSend s line) := by
  unfold State.conSend
  try dsimp only
  repeat' first
    | with_reducible assumption
    | exact id
    | exact ⟨rfl, rfl⟩
    | with_reducible apply Kept.ite
    | with_reducible refine Kept.upd ?_ ?_ ?_ ?_ ?_ ?_

theorem State.conLineOut_kept (h : Kept ws sd s) (line : String) : Kept ws sd (State.conLineOut s line) := by
  unfold State.conLineOut
  try dsimp only
  repeat' first
    | with_reducible assumption
    | with_reducible apply State.conSend_kept

theorem State.queueUp_kept (h : Kept ws sd s) {u : UpItem} (hu : ∀ t, u ≠ .notice t) : Kept ws sd (State.queueUp s u) :=
  h.upd ⟨rfl, rfl⟩ (fun hc => by simpa [Chain.Bounded, Chain.notices_append_other hu] using hc) id id id

theorem State.notice_kept (h : Kept ws sd s) (text : List Tok) : Kept ws sd (State.notice s text) := by
  have hs : Kept ws sd (if s.chain.released && !s.chain.swapHold then s
      else if 16 ≤ s.chain.notices then
        { s with chain := { s.chain with evt := raise s.chain.evt 10, eNlost := satInc s.chain.eNlost } }
      else if s.chain.swapHold then { s with chain := { s.chain with upHeld := s.chain.upHeld ++ [.notice text] } }
      else s.queueUp (.notice text)) := by
    split
    · exact h
    split
    · exact h.upd ⟨rfl, rfl⟩ id id id id
    rename_i hn
    have room : s.chain.notices + 1 ≤ 16 := by omega
    split
    · exact h.upd ⟨rfl, rfl⟩ (fun _ => by simp [Chain.Bounded, Chain.notices] at *; omega) id id id
    · exact h.upd ⟨rfl, rfl⟩ (fun _ => by simp [Chain.Bounded, Chain.notices] at *; omega) id id id
  unfold State.notice
  dsimp only
  split
  · exact State.conLineOut_kept hs _
  · exact hs

theorem State.resetReplyLeft_kept (h : Kept ws sd s) (wait : optParam Nat 0) : Kept ws sd (State.resetReplyLeft s wait) := by
  unfold State.resetReplyLeft
  try dsimp only
  repeat' first
    | with_reducible assumption
    | fail_if_no_progress with_reducible apply Kept.other

theorem State.reply_kept (h : Kept ws sd s) (src : Source) (b : ReplyBody) (reset : Bool) :
    Kept ws sd (State.reply s src b reset) := by
  unfold State.reply
  try dsimp only
  repeat' first
    | with_reducible assumption
    | contradiction
    | intro _
    | with_reducible apply State.resetReplyLeft_kept
    | with_reducible apply State.queueUp_kept
    | with_reducible apply State.conLineOut_kept
    | split

theorem State.sendUp_kept (h : Kept ws sd s) (w : WireItem) : Kept ws sd (State.sendUp s w) := by
  unfold State.sendUp
  try dsimp only
  repeat' first
    | with_reducible assumption
    | exact id
    | exact ⟨rfl, rfl⟩
    | with_reducible apply Kept.ite
    | with_reducible refine Kept.upd ?_ ?_ ?_ ?_ ?_ ?_

theorem State.sendDn_kept (h : Kept ws sd s) (w : WireItem) : Kept ws sd (State.sendDn s w) := by
  unfold State.sendDn
  try dsimp only
  repeat' first
    | with_reducible assumption
    | exact id
    | exact ⟨rfl, rfl⟩
    | with_reducible apply Kept.ite
    | with_reducible refine Kept.upd ?_ ?_ ?_ ?_ ?_ ?_

theorem State.relayUp_kept (h : Kept ws sd s) (w : WireItem) : Kept ws sd (State.relayUp s w) := by
  unfold State.relayUp
  try dsimp only
  repeat' first
    | with_reducible assumption
    | exact id
    | exact ⟨rfl, rfl⟩
    | with_reducible apply State.sendUp_kept
    | with_reducible apply Kept.ite
    | with_reducible refine Kept.upd ?_ ?_ ?_ ?_ ?_ ?_

theorem State.seizeUp_kept (h : Kept ws sd s) (c : ChainChar) : Kept ws sd (State.seizeUp s c) := by
  unfold State.seizeUp
  try dsimp only
  repeat' first
    | with_reducible assumption
    | exact id
    | exact ⟨rfl, rfl⟩
    | with_reducible apply State.sendUp_kept
    | with_reducible refine Kept.upd ?_ ?_ ?_ ?_ ?_ ?_

theorem State.forward_kept (h : Kept ws sd s) (p : Port) (w : WireItem) : Kept ws sd (State.forward s p w) := by
  unfold State.forward
  try dsimp only
  repeat' first
    | with_reducible assumption
    | with_reducible apply State.sendDn_kept
    | with_reducible apply State.relayUp_kept
    | with_reducible apply Kept.ite

theorem State.forwardKill_kept (h : Kept ws sd s) (p : Port) : Kept ws sd (State.forwardKill s p) := by
  unfold State.forwardKill
  try dsimp only
  repeat' first
    | with_reducible assumption
    | with_reducible apply State.sendDn_kept
    | with_reducible apply State.seizeUp_kept
    | with_reducible apply Kept.ite

theorem State.forwardIdle_kept (p : Port) (n : Nat) : ∀ {s : State}, Kept ws sd s → Kept ws sd (State.forwardIdle s p n) := by
  induction n with
  | zero => exact fun h => h
  | succ n ih => exact fun h => ih (Kept.ite h (Kept.ite (State.sendDn_kept h _) (Kept.ite (State.sendUp_kept h _) h)))

theorem State.gangwayPass_kept (h : Kept ws sd s) (p : Port) (w : WireItem) : Kept ws sd (State.gangwayPass s p w) := by
  unfold State.gangwayPass
  try dsimp only
  repeat' first
    | with_reducible assumption
    | exact id
    | exact ⟨rfl, rfl⟩
    | with_reducible apply Kept.ite
    | with_reducible refine Kept.upd ?_ ?_ ?_ ?_ ?_ ?_

theorem State.modPort_kept (h : Kept ws sd s) (p : Port) (f : PortState → PortState) : Kept ws sd (State.modPort s p f) := by
  unfold State.modPort
  try dsimp only
  repeat' first
    | exact Chain.setPort_bounded _ _ _
    | with_reducible assumption
    | exact id
    | exact ⟨rfl, rfl⟩
    | with_reducible refine Kept.upd ?_ ?_ ?_ ?_ ?_ ?_

theorem State.deaf_kept (h : Kept ws sd s) (p : Port) (n : Nat) : Kept ws sd (State.deaf s p n) :=
  State.forwardIdle_kept p n (State.modPort_kept h ..)

theorem State.receive_kept (h : Kept ws sd s) (p : Port) (w : WireItem) {take : State → State} (ht : Kept ws sd (take s)) :
    Kept ws sd (State.receive s p w take) :=
  Kept.ite (State.gangwayPass_kept h ..) (Kept.ite h (Kept.ite (State.deaf_kept h ..) ht))

theorem State.frameError_kept (h : Kept ws sd s) (p : Port) : Kept ws sd (State.frameError s p) := by
  unfold State.frameError
  try dsimp only
  repeat' first
    | with_reducible assumption
    | with_reducible apply State.modPort_kept

theorem State.crcError_kept (h : Kept ws sd s) (p : Port) : Kept ws sd (State.crcError s p) := by
  unfold State.crcError
  try dsimp only
  repeat' first
    | with_reducible assumption
    | with_reducible apply State.modPort_kept

theorem State.seqError_kept (h : Kept ws sd s) (p : Port) (q : SeqArrival) (n : Nat) : Kept ws sd (State.seqError s p q n) := by
  unfold State.seqError
  try dsimp only
  repeat' first
    | with_reducible assumption
    | with_reducible apply State.crcError_kept
    | with_reducible apply State.frameError_kept
    | with_reducible apply Kept.ite

theorem State.chnEvt_kept (h : Kept ws sd s) (k : Nat) : Kept ws sd (State.chnEvt s k) := by
  unfold State.chnEvt
  try dsimp only
  repeat' first
    | with_reducible assumption
    | exact id
    | exact ⟨rfl, rfl⟩
    | with_reducible refine Kept.upd ?_ ?_ ?_ ?_ ?_ ?_

theorem State.clkEvt_kept (h : Kept ws sd s) (k : Nat) : Kept ws sd (State.clkEvt s k) := by
  unfold State.clkEvt
  try dsimp only
  repeat' first
    | with_reducible assumption
    | fail_if_no_progress with_reducible apply Kept.other

theorem State.clkFlag_kept (h : Kept ws sd s) (k : Nat) : Kept ws sd (State.clkFlag s k) := by
  unfold State.clkFlag
  try dsimp only
  repeat' first
    | with_reducible assumption
    | with_reducible apply State.clkEvt_kept
    | with_reducible apply Kept.ite

theorem State.clkFailure_kept (h : Kept ws sd s) (k : Nat) (code : Nat) : Kept ws sd (State.clkFailure s k code) := by
  unfold State.clkFailure
  try dsimp only
  repeat' first
    | with_reducible assumption
    | with_reducible apply State.clkEvt_kept
    | with_reducible apply State.record_kept
    | with_reducible apply Kept.ite

theorem State.pwrEvt_kept (h : Kept ws sd s) (k : Nat) : Kept ws sd (State.pwrEvt s k) := by
  unfold State.pwrEvt
  try dsimp only
  repeat' first
    | with_reducible assumption
    | fail_if_no_progress with_reducible apply Kept.other

theorem State.staEvt_kept (h : Kept ws sd s) (k : Nat) : Kept ws sd (State.staEvt s k) := by
  unfold State.staEvt
  try dsimp only
  repeat' first
    | with_reducible assumption
    | exact id
    | exact ⟨rfl, rfl⟩
    | with_reducible refine Kept.upd ?_ ?_ ?_ ?_ ?_ ?_

theorem State.xngEvt_kept (h : Kept ws sd s) (k : Nat) : Kept ws sd (State.xngEvt s k) := by
  unfold State.xngEvt
  try dsimp only
  repeat' first
    | with_reducible assumption
    | fail_if_no_progress with_reducible apply Kept.other

theorem State.odoEvt_kept (h : Kept ws sd s) (k : Nat) : Kept ws sd (State.odoEvt s k) := by
  unfold State.odoEvt
  try dsimp only
  repeat' first
    | with_reducible assumption
    | exact id
    | exact ⟨rfl, rfl⟩
    | with_reducible refine Kept.upd ?_ ?_ ?_ ?_ ?_ ?_

theorem State.enter_kept (h : Kept ws false s) (st : UnitState) (cause : StateCause)
    (hs : sd = true → s.SafeAs st) : Kept ws sd (State.enter s st cause) := by
  have key (t : State) (ht : Kept ws sd t) : Kept ws sd ((t.record 0x0C1 63 (BitVec.ofNat 24 (st.code + 8 * cause.code))).notice
      [.word "STATE", .word st.word, .word cause.word]) := State.notice_kept (State.record_kept ht ..) _
  refine key _ ?_
  have base : Kept ws sd { s with
      unit := { s.unit with st := st }
      power := { s.power with handed := s.power.handed && decide (st = UnitState.safe) }
      motion := if st = UnitState.stranded then s.motion else s.motion.returnSource
      sol := { s.sol with chans := s.sol.chans.map SolChan.clearManual }
      pwm := { s.pwm with valves := s.pwm.valves.map Valve.clearManual } } := by
    refine ⟨h.pending, ⟨h.stores.regs, h.stores.chain, h.stores.manil, ?_, h.stores.recorder⟩, fun e ph ns => hs e ph ns⟩
    dsimp only
    split
    · exact h.stores.motion
    · exact Motion.returnSource_bounded h.stores.motion
  split
  · exact State.staEvt_kept base _
  · exact State.staEvt_kept base _
  · exact base

/-- SAFE may be entered from anywhere. -/
theorem State.enterSafe_kept (h : Kept ws false s) (cause : StateCause) : Kept ws sd (State.enter s .safe cause) :=
  State.enter_kept h _ _ fun _ _ _ => .inl rfl

/-- SAFE is entered, or the unit stands in it. -/
theorem State.settleSafe_kept (h : Kept ws false s) (cause : StateCause) :
    Kept ws sd (if s.unit.st = .safe then s else State.enter s .safe cause) := by
  split
  · rename_i hs
    exact ⟨h.pending, h.stores, fun _ _ _ => .inl hs⟩
  · exact State.enterSafe_kept h _

theorem State.markStale_kept (h : Kept ws sd s) : Kept ws sd (State.markStale s) := by
  unfold State.markStale
  try dsimp only
  repeat' first
    | with_reducible assumption
    | fail_if_no_progress with_reducible apply Kept.other


/-! ### Machine/Operands.lean -/

theorem State.modSol_kept (h : Kept ws sd s) (c : Fin 32) (f : SolChan → SolChan) : Kept ws sd (State.modSol s c f) := by
  unfold State.modSol
  try dsimp only
  repeat' first
    | with_reducible assumption
    | fail_if_no_progress with_reducible apply Kept.other

theorem State.modBank_kept (h : Kept ws sd s) (b : Fin 8) (f : Bank → Bank) : Kept ws sd (State.modBank s b f) := by
  unfold State.modBank
  try dsimp only
  repeat' first
    | with_reducible assumption
    | fail_if_no_progress with_reducible apply Kept.other

theorem State.modBoost_kept (h : Kept ws sd s) (f : Boost → Boost) : Kept ws sd (State.modBoost s f) := by
  unfold State.modBoost
  try dsimp only
  repeat' first
    | with_reducible assumption
    | fail_if_no_progress with_reducible apply Kept.other

theorem State.modSlice_kept (h : Kept ws sd s) (i : Fin 12) (f : Slice → Slice) : Kept ws sd (State.modSlice s i f) := by
  unfold State.modSlice
  try dsimp only
  repeat' first
    | with_reducible assumption
    | fail_if_no_progress with_reducible apply Kept.other

theorem State.modValve_kept (h : Kept ws sd s) (v : Fin 8) (f : Valve → Valve) : Kept ws sd (State.modValve s v f) := by
  unfold State.modValve
  try dsimp only
  repeat' first
    | with_reducible assumption
    | fail_if_no_progress with_reducible apply Kept.other

theorem State.modX_kept (h : Kept ws sd s) (c : Fin 40) (f : XChan → XChan) : Kept ws sd (State.modX s c f) := by
  unfold State.modX
  try dsimp only
  repeat' first
    | with_reducible assumption
    | fail_if_no_progress with_reducible apply Kept.other

theorem State.modLoop_kept (h : Kept ws sd s) (l : Fin 8) (f : Loop → Loop) : Kept ws sd (State.modLoop s l f) := by
  unfold State.modLoop
  try dsimp only
  repeat' first
    | with_reducible assumption
    | fail_if_no_progress with_reducible apply Kept.other

theorem State.modTrace_kept (h : Kept ws sd s) (b : Fin 4) (f : Trace → Trace) : Kept ws sd (State.modTrace s b f) := by
  unfold State.modTrace
  try dsimp only
  repeat' first
    | with_reducible assumption
    | fail_if_no_progress with_reducible apply Kept.other

theorem State.modPair_kept (h : Kept ws sd s) (p : Fin 4) (f : Pair → Pair) : Kept ws sd (State.modPair s p f) := by
  unfold State.modPair
  try dsimp only
  repeat' first
    | with_reducible assumption
    | fail_if_no_progress with_reducible apply Kept.other

theorem State.modFin_kept (h : Kept ws sd s) (n : Fin 8) (f : FinState → FinState) : Kept ws sd (State.modFin s n f) := by
  unfold State.modFin
  try dsimp only
  repeat' first
    | with_reducible assumption
    | exact id
    | exact ⟨rfl, rfl⟩
    | with_reducible refine Kept.upd ?_ ?_ ?_ ?_ ?_ ?_

theorem State.modEnc_kept (h : Kept ws sd s) (p : Fin 4) (f : EncState → EncState) : Kept ws sd (State.modEnc s p f) := by
  unfold State.modEnc
  try dsimp only
  repeat' first
    | with_reducible assumption
    | exact id
    | exact ⟨rfl, rfl⟩
    | with_reducible refine Kept.upd ?_ ?_ ?_ ?_ ?_ ?_

theorem State.modAuth_kept (h : Kept ws sd s) (src : Source) (f : AuthState → AuthState) :
    Kept ws sd (State.modAuth s src f) := by
  unfold State.modAuth
  try dsimp only
  repeat' first
    | with_reducible assumption
    | split
    | fail_if_no_progress with_reducible apply Kept.other


/-! ### Machine/Bridge.lean -/

theorem State.modBridge_kept (h : Kept ws sd s) (v : Fin 8) (f : Valve → Valve) : Kept ws sd (State.modBridge s v f) := by
  unfold State.modBridge
  try dsimp only
  repeat' first
    | with_reducible assumption
    | with_reducible apply State.modValve_kept
    | with_reducible apply Kept.ite

theorem State.endPeriodGates_kept (h : Kept ws sd s) (v : Fin 8) (tick : Nat) : Kept ws sd (State.endPeriodGates s v tick) := by
  unfold State.endPeriodGates
  try dsimp only
  repeat' first
    | with_reducible assumption
    | with_reducible apply State.modValve_kept
    | with_reducible apply Kept.ite

end Sys2Proof.Machine
end

