-- ==== Sys2Proof/Laws/KeptDrive.lean ====
section
/-! SUPPORT. What is kept (Laws/Kept.lean) by demands, phases, runs and the endings of crossings: one lemma for each operation. -/
namespace Sys2Proof.Machine

open Sys2Proof

variable {ws : List Instr} {sd : Bool} {s : State}

/-! ### Machine/Drive.lean -/

theorem State.solDiag_kept (h : Kept ws sd s) (c : Fin 32) (k : Nat) : Kept ws sd (State.solDiag s c k) := by
  unfold State.solDiag
  try dsimp only
  repeat' first
    | with_reducible assumption
    | with_reducible apply State.modSol_kept
    | with_reducible apply State.record_kept
    | with_reducible apply State.notice_kept

theorem State.dequeue_kept (h : Kept ws sd s) (c : Fin 32) : Kept ws sd (State.dequeue s c) := by
  unfold State.dequeue
  try dsimp only
  repeat' first
    | with_reducible assumption
    | with_reducible apply State.modBank_kept

theorem State.releaseArbiter_kept (h : Kept ws sd s) (c : Fin 32) : Kept ws sd (State.releaseArbiter s c) := by
  unfold State.releaseArbiter
  try dsimp only
  repeat' first
    | with_reducible assumption
    | with_reducible apply State.modBank_kept

theorem State.requestBoost_kept (h : Kept ws sd s) (c : Fin 32) (teach : Bool) : Kept ws sd (State.requestBoost s c teach) := by
  unfold State.requestBoost
  try dsimp only
  repeat' first
    | with_reducible assumption
    | with_reducible apply State.modSol_kept
    | with_reducible apply State.modBank_kept

theorem State.onDemand_kept (h : Kept ws sd s) (c : Fin 32) : Kept ws sd (State.onDemand s c) := by
  unfold State.onDemand
  try dsimp only
  repeat' first
    | with_reducible assumption
    | with_reducible apply State.requestBoost_kept
    | with_reducible apply State.modSol_kept
    | with_reducible apply State.solDiag_kept
    | split

theorem State.startOff_kept (h : Kept ws sd s) (c : Fin 32) (d : Decay) : Kept ws sd (State.startOff s c d) := by
  unfold State.startOff
  try dsimp only
  repeat' first
    | with_reducible assumption
    | with_reducible apply State.modSol_kept

theorem State.offDemand_kept (h : Kept ws sd s) (c : Fin 32) (fast : Bool) : Kept ws sd (State.offDemand s c fast) := by
  unfold State.offDemand
  try dsimp only
  repeat' first
    | with_reducible assumption
    | with_reducible apply State.dequeue_kept
    | with_reducible apply State.modSol_kept
    | with_reducible apply State.releaseArbiter_kept
    | with_reducible apply State.startOff_kept
    | split

theorem State.startInterval_kept (h : Kept ws sd s) (c : Fin 32) (f : Nat) (p : Nat) (d : Frac) :
    Kept ws sd (State.startInterval s c f p d) := by
  unfold State.startInterval
  try dsimp only
  repeat' first
    | with_reducible assumption
    | with_reducible apply State.modSol_kept
    | with_reducible apply State.solDiag_kept
    | with_reducible apply Kept.ite

theorem State.applySol_kept (h : Kept ws sd s) (c : Fin 32) : Kept ws sd (State.applySol s c) := by
  unfold State.applySol
  try dsimp only
  repeat' first
    | with_reducible assumption
    | with_reducible apply State.modSol_kept
    | with_reducible apply State.offDemand_kept
    | with_reducible apply State.onDemand_kept
    | with_reducible apply State.startInterval_kept
    | split

theorem State.tellEnd_kept (h : Kept ws sd s) (c : Fin 40) (k : Current) (e : Nat) (cause : EndCause) :
    Kept ws sd (State.tellEnd s c k e cause) := by
  unfold State.tellEnd
  try dsimp only
  repeat' first
    | with_reducible assumption
    | with_reducible apply State.record_kept
    | with_reducible apply State.notice_kept
    | with_reducible apply Kept.ite
    | fail_if_no_progress with_reducible apply Kept.other

theorem State.endDecided_kept (h : Kept ws sd s) (c : Fin 40) (k : Current) (cause : EndCause) :
    Kept ws sd (State.endDecided s c k cause) := by
  unfold State.endDecided
  try dsimp only
  repeat' first
    | with_reducible assumption
    | with_reducible apply State.modX_kept
    | with_reducible apply State.tellEnd_kept

theorem State.endCast_kept (h : Kept ws sd s) (c : Fin 40) (cause : EndCause) : Kept ws sd (State.endCast s c cause) := by
  unfold State.endCast
  try dsimp only
  repeat' first
    | with_reducible assumption
    | with_reducible apply State.modX_kept
    | with_reducible apply State.tellEnd_kept
    | split

theorem State.endCrossing_kept (h : Kept ws sd s) (c : Fin 40) (cause : EndCause) : Kept ws sd (State.endCrossing s c cause) := by
  unfold State.endCrossing
  try dsimp only
  repeat' first
    | with_reducible assumption
    | intro _
    | with_reducible apply State.endDecided_kept
    | with_reducible apply State.endCast_kept
    | with_reducible apply Kept.foldl

theorem State.endAll_kept (h : Kept ws sd s) (cause : EndCause) : Kept ws sd (State.endAll s cause) := by
  unfold State.endAll
  try dsimp only
  repeat' first
    | with_reducible assumption
    | intro _
    | with_reducible apply State.endCrossing_kept
    | with_reducible apply Kept.foldl

theorem State.closeLevels_kept (h : Kept ws sd s) : Kept ws sd (State.closeLevels s) := by
  unfold State.closeLevels
  try dsimp only
  repeat' first
    | with_reducible assumption
    | fail_if_no_progress with_reducible apply Kept.other

theorem State.recordValveEnd_kept (h : Kept ws sd s) (v : Fin 8) (why : RunWhy) (how : Nat) :
    Kept ws sd (State.recordValveEnd s v why how) := by
  unfold State.recordValveEnd
  try dsimp only
  repeat' first
    | with_reducible assumption
    | with_reducible apply State.record_kept
    | split

theorem State.arrive_kept (h : Kept ws sd s) (v : Fin 8) : Kept ws sd (State.arrive s v) := by
  unfold State.arrive
  try dsimp only
  repeat' first
    | with_reducible assumption
    | with_reducible apply State.modBridge_kept
    | with_reducible apply State.recordValveEnd_kept
    | split

theorem State.spoilHandover_kept (h : Kept ws sd s) (v : Fin 8) : Kept ws sd (State.spoilHandover s v) := by
  unfold State.spoilHandover
  try dsimp only
  repeat' first
    | with_reducible assumption
    | fail_if_no_progress with_reducible apply Kept.other

theorem State.limitFault_kept (h : Kept ws sd s) (v : Fin 8) (k : Nat) : Kept ws sd (State.limitFault s v k) := by
  unfold State.limitFault
  try dsimp only
  repeat' first
    | with_reducible assumption
    | with_reducible apply State.modBridge_kept
    | with_reducible apply State.record_kept
    | with_reducible apply State.notice_kept
    | with_reducible apply State.pwrEvt_kept
    | with_reducible apply State.recordValveEnd_kept
    | with_reducible apply State.spoilHandover_kept
    | with_reducible apply State.endCrossing_kept
    | split

theorem State.openFirst_kept (h : Kept ws sd s) (v : Fin 8) : Kept ws sd (State.openFirst s v) := by
  unfold State.openFirst
  try dsimp only
  repeat' first
    | with_reducible assumption
    | with_reducible apply State.modValve_kept

theorem State.startRun_kept (h : Kept ws sd s) (v : Fin 8) (e : ValveEnd) (why : RunWhy) :
    Kept ws sd (State.startRun s v e why) := by
  unfold State.startRun
  try dsimp only
  repeat' first
    | with_reducible assumption
    | with_reducible apply State.limitFault_kept
    | with_reducible apply State.spoilHandover_kept
    | with_reducible apply State.modBridge_kept
    | with_reducible apply State.recordValveEnd_kept
    | with_reducible apply State.openFirst_kept
    | with_reducible apply Kept.ite

theorem State.positionAim_kept (h : Kept ws sd s) (v : Fin 8) : Kept ws sd (State.positionAim s v) := by
  unfold State.positionAim
  try dsimp only
  repeat' first
    | with_reducible assumption
    | with_reducible apply State.startRun_kept
    | split

theorem State.takeDemand_kept (h : Kept ws sd s) (v : Fin 8) (d : ValveDemand) : Kept ws sd (State.takeDemand s v d) := by
  unfold State.takeDemand
  try dsimp only
  repeat' first
    | with_reducible assumption
    | with_reducible apply State.modValve_kept
    | with_reducible apply State.modBridge_kept
    | with_reducible apply State.openFirst_kept
    | with_reducible apply State.startRun_kept
    | with_reducible apply State.positionAim_kept
    | split

theorem State.applyValve_kept (h : Kept ws sd s) (v : Fin 8) : Kept ws sd (State.applyValve s v) := by
  unfold State.applyValve
  try dsimp only
  repeat' first
    | with_reducible assumption
    | with_reducible apply State.takeDemand_kept
    | with_reducible apply Kept.ite

theorem State.solFault_kept (h : Kept ws sd s) (c : Fin 32) (k : Nat) : Kept ws sd (State.solFault s c k) := by
  unfold State.solFault
  try dsimp only
  repeat' first
    | with_reducible assumption
    | with_reducible apply State.modSol_kept
    | with_reducible apply State.endCrossing_kept

theorem State.missLanding_kept (h : Kept ws sd s) (c : Fin 32) : Kept ws sd (State.missLanding s c) := by
  unfold State.missLanding
  try dsimp only
  repeat' first
    | with_reducible assumption
    | with_reducible apply State.modX_kept

theorem State.closeWindow_kept (h : Kept ws sd s) (c : Fin 32) : Kept ws sd (State.closeWindow s c) := by
  unfold State.closeWindow
  try dsimp only
  repeat' first
    | with_reducible assumption
    | with_reducible apply State.modSol_kept
    | with_reducible apply State.missLanding_kept
    | with_reducible apply State.solDiag_kept
    | with_reducible apply State.solFault_kept
    | with_reducible apply Kept.ite

theorem State.endPeak_kept (h : Kept ws sd s) (c : Fin 32) : Kept ws sd (State.endPeak s c) := by
  unfold State.endPeak
  try dsimp only
  repeat' first
    | with_reducible assumption
    | with_reducible apply State.modSol_kept
    | with_reducible apply State.closeWindow_kept

theorem State.startPeak_kept (h : Kept ws sd s) (c : Fin 32) : Kept ws sd (State.startPeak s c) := by
  unfold State.startPeak
  try dsimp only
  repeat' first
    | with_reducible assumption
    | with_reducible apply State.modSol_kept
    | with_reducible apply State.endPeak_kept
    | split

theorem State.endBoost_kept (h : Kept ws sd s) (c : Fin 32) : Kept ws sd (State.endBoost s c) := by
  unfold State.endBoost
  try dsimp only
  repeat' first
    | with_reducible assumption
    | with_reducible apply State.releaseArbiter_kept
    | with_reducible apply State.startPeak_kept

theorem State.killBanks_kept (h : Kept ws sd s) : Kept ws sd (State.killBanks s) := by
  unfold State.killBanks
  try dsimp only
  repeat' first
    | with_reducible assumption
    | intro _
    | with_reducible apply State.modSol_kept
    | with_reducible apply State.modBank_kept
    | with_reducible apply State.endBoost_kept
    | with_reducible apply Kept.foldl
    | split

theorem State.applySlice_kept (h : Kept ws sd s) (i : Fin 12) : Kept ws sd (State.applySlice s i) := by
  unfold State.applySlice
  try dsimp only
  repeat' first
    | with_reducible assumption
    | intro _
    | with_reducible apply State.modSlice_kept
    | with_reducible apply State.modValve_kept
    | with_reducible apply State.openFirst_kept
    | with_reducible apply Kept.foldl
    | with_reducible apply Kept.ite

theorem State.applyBoost_kept (h : Kept ws sd s) : Kept ws sd (State.applyBoost s) := by
  unfold State.applyBoost
  try dsimp only
  repeat' first
    | with_reducible assumption
    | with_reducible apply State.modBoost_kept

theorem State.boostUnready_kept (h : Kept ws sd s) : Kept ws sd (State.boostUnready s) := by
  unfold State.boostUnready
  try dsimp only
  repeat' first
    | with_reducible assumption
    | intro _
    | with_reducible apply State.modSol_kept
    | with_reducible apply State.solDiag_kept
    | with_reducible apply Kept.foldl
    | with_reducible apply Kept.ite

theorem State.finishHandover_kept (h : Kept ws sd s) : Kept ws sd (State.finishHandover s) := by
  unfold State.finishHandover
  split
  · exact h
  · exact Kept.ite h (Kept.ite h.other
      (State.settleSafe_kept (State.closeLevels_kept (State.markStale_kept h.weaken.free)) _))

theorem State.finishLimit_kept (h : Kept ws sd s) : Kept ws sd (State.finishLimit s) := by
  unfold State.finishLimit
  exact Kept.ite h (State.settleSafe_kept (State.closeLevels_kept (State.markStale_kept h.weaken.free)) _)

theorem State.applyAll_kept (h : Kept ws sd s) : Kept ws sd (State.applyAll s) := by
  unfold State.applyAll
  try dsimp only
  repeat' first
    | with_reducible assumption
    | intro _
    | with_reducible apply State.applySlice_kept
    | with_reducible apply State.applyBoost_kept
    | with_reducible apply State.applySol_kept
    | with_reducible apply State.boostUnready_kept
    | with_reducible apply State.applyValve_kept
    | with_reducible apply Kept.foldl
    | with_reducible apply Kept.ite

theorem State.refresh_kept (h : Kept ws sd s) : Kept ws sd (State.refresh s) := by
  unfold State.refresh
  try dsimp only
  repeat' first
    | with_reducible assumption
    | with_reducible apply State.applyAll_kept
    | with_reducible apply State.finishHandover_kept
    | with_reducible apply State.finishLimit_kept
    | with_reducible apply Kept.ite

end Sys2Proof.Machine
end

