-- ==== Sys2Proof/Laws/KeptUnits.lean ====
section
/-! SUPPORT. What is kept (Laws/Kept.lean) by clocks, motion, crossings, banks, valves, pilot and ports: one lemma for each operation. -/
namespace Sys2Proof.Machine

open Sys2Proof

variable {ws : List Instr} {sd : Bool} {s : State}

/-! ### Machine/Flags.lean -/

theorem State.takeSnap_kept (h : Kept ws sd s) (src : Source) (a : Nat) : Kept ws sd (State.takeSnap s src a) := by
  unfold State.takeSnap
  try dsimp only
  repeat' first
    | with_reducible assumption
    | exact id
    | exact ⟨rfl, rfl⟩
    | split
    | with_reducible refine Kept.upd ?_ ?_ ?_ ?_ ?_ ?_

theorem State.clearFlags_kept (h : Kept ws sd s) (a : Nat) (v : Word) : Kept ws sd (State.clearFlags s a v) := by
  unfold State.clearFlags
  try dsimp only
  repeat' first
    | with_reducible assumption
    | exact id
    | exact ⟨rfl, rfl⟩
    | with_reducible apply State.modBoost_kept
    | with_reducible apply State.modSol_kept
    | with_reducible apply State.modBank_kept
    | with_reducible apply State.modValve_kept
    | split
    | with_reducible refine Kept.upd ?_ ?_ ?_ ?_ ?_ ?_

theorem State.clearCounters_kept (h : Kept ws sd s) (a : Nat) (v : Word) : Kept ws sd (State.clearCounters s a v) := by
  unfold State.clearCounters
  try dsimp only
  repeat' first
    | with_reducible assumption
    | exact id
    | exact ⟨rfl, rfl⟩
    | split
    | with_reducible refine Kept.upd ?_ ?_ ?_ ?_ ?_ ?_


/-! ### Machine/Clocks.lean -/

theorem State.modClk_kept (h : Kept ws sd s) (f : Clocks → Clocks) : Kept ws sd (State.modClk s f) := by
  unfold State.modClk
  try dsimp only
  repeat' first
    | with_reducible assumption
    | fail_if_no_progress with_reducible apply Kept.other

theorem State.dropCk_kept (h : Kept ws sd s) : Kept ws sd (State.dropCk s) := by
  unfold State.dropCk
  try dsimp only
  repeat' first
    | with_reducible assumption
    | with_reducible apply State.clkFlag_kept
    | with_reducible apply State.modClk_kept
    | with_reducible apply Kept.ite

theorem State.shiftSchedules_kept (h : Kept ws sd s) (d : Int) : Kept ws sd (State.shiftSchedules s d) := by
  unfold State.shiftSchedules
  try dsimp only
  repeat' first
    | with_reducible assumption
    | fail_if_no_progress with_reducible apply Kept.other

theorem State.setTime4096_kept (h : Kept ws sd s) (v : Int) : Kept ws sd (State.setTime4096 s v) := by
  unfold State.setTime4096
  try dsimp only
  repeat' first
    | with_reducible assumption
    | fail_if_no_progress with_reducible apply Kept.other

theorem State.forgetMarks_kept (h : Kept ws sd s) : Kept ws sd (State.forgetMarks s) := by
  unfold State.forgetMarks
  try dsimp only
  repeat' first
    | with_reducible assumption
    | fail_if_no_progress with_reducible apply Kept.other

theorem State.loadTime_kept (h : Kept ws sd s) (v : Int) : Kept ws sd (State.loadTime s v) := by
  have hm (t : State) (d : Int) (ht : Kept ws sd t) : Kept ws sd (State.shiftSchedules { t with motion := t.motion.shift d } d) :=
    State.shiftSchedules_kept (ht.upd ⟨rfl, rfl⟩ id id (Motion.shift_bounded d) id) d
  have h3 := hm _ (roundDiv (signedDiff v (roundDiv s.heldTime 390625)) 4096)
    (State.forgetMarks_kept (State.setTime4096_kept (State.modClk_kept h fun c => { c with
      terr := terrOf (roundDiv (signedDiff v (roundDiv s.heldTime 390625) * 1000) 4096), aligned := true, mode := .track }) v))
  unfold State.loadTime
  exact Kept.ite (State.modClk_kept (State.modClk_kept h _) _) (Kept.ite h3 (State.record_kept (State.clkEvt_kept h3 _) ..))


/-! ### Machine/Motion.lean -/

theorem State.modMotion_kept (h : Kept ws sd s) {f : Motion → Motion} (hf : s.motion.Bounded → (f s.motion).Bounded) : Kept ws sd (State.modMotion s f) :=
  h.upd ⟨rfl, rfl⟩ id id hf id

theorem State.setDir_kept (h : Kept ws sd s) (rev : Bool) : Kept ws sd (State.setDir s rev) := by
  unfold State.setDir
  try dsimp only
  repeat' first
    | with_reducible assumption
    | exact id
    | with_reducible apply State.modMotion_kept
    | with_reducible apply State.odoEvt_kept
    | with_reducible apply State.record_kept
    | with_reducible apply State.notice_kept
    | with_reducible apply Kept.ite

theorem State.trackDir_kept (h : Kept ws sd s) : Kept ws sd (State.trackDir s) := by
  unfold State.trackDir
  try dsimp only
  repeat' first
    | with_reducible assumption
    | exact id
    | with_reducible apply State.modMotion_kept
    | with_reducible apply State.setDir_kept
    | with_reducible apply Kept.ite

theorem State.followDir_kept (h : Kept ws sd s) : Kept ws sd (State.followDir s) := by
  unfold State.followDir
  try dsimp only
  repeat' first
    | with_reducible assumption
    | with_reducible apply State.setDir_kept
    | split

theorem State.moveOdo_kept (h : Kept ws sd s) (d : Int) : Kept ws sd (State.moveOdo s d) := by
  unfold State.moveOdo
  try dsimp only
  repeat' first
    | with_reducible assumption
    | exact id
    | with_reducible apply State.modMotion_kept
    | with_reducible apply State.odoEvt_kept
    | with_reducible apply State.record_kept
    | with_reducible apply State.trackDir_kept
    | with_reducible apply Kept.ite

theorem State.latchPair_kept (h : Kept ws sd s) (stamp : ChainTime) : Kept ws sd (State.latchPair s stamp) :=
  State.modMotion_kept h fun _ => by simp [Motion.Bounded]

theorem State.sourceStep_kept (h : Kept ws sd s) (d : Int) (stamp : ChainTime) : Kept ws sd (State.sourceStep s d stamp) := by
  unfold State.sourceStep
  try dsimp only
  repeat' first
    | with_reducible assumption
    | with_reducible apply State.moveOdo_kept
    | with_reducible apply State.latchPair_kept
    | with_reducible apply Kept.ite

theorem State.quadEdge_kept (h : Kept ws sd s) (n : Fin 8) (stamp : ChainTime) (cycles : Nat) (both : Bool) :
    Kept ws sd (State.quadEdge s n stamp cycles both) := by
  unfold State.quadEdge
  try dsimp only
  repeat' first
    | with_reducible assumption
    | exact id
    | with_reducible apply State.modFin_kept
    | with_reducible apply State.modMotion_kept
    | with_reducible apply State.sourceStep_kept
    | with_reducible apply Kept.ite

theorem State.singleEdge_kept (h : Kept ws sd s) (n : Fin 8) (stamp : ChainTime) (cycles : Nat) :
    Kept ws sd (State.singleEdge s n stamp cycles) := by
  unfold State.singleEdge
  try dsimp only
  repeat' first
    | with_reducible assumption
    | with_reducible apply State.modFin_kept
    | with_reducible apply State.sourceStep_kept
    | with_reducible apply Kept.ite

theorem State.failRead_kept (h : Kept ws sd s) (p : Fin 4) (cause : Nat) : Kept ws sd (State.failRead s p cause) := by
  unfold State.failRead
  try dsimp only
  repeat' first
    | with_reducible assumption
    | exact id
    | with_reducible apply State.modEnc_kept
    | with_reducible apply State.modMotion_kept
    | with_reducible apply State.odoEvt_kept
    | with_reducible apply State.record_kept
    | with_reducible apply State.notice_kept
    | with_reducible apply Kept.ite

theorem State.goodRead_kept (h : Kept ws sd s) (p : Fin 4) (word : Nat) : Kept ws sd (State.goodRead s p word) := by
  unfold State.goodRead
  try dsimp only
  repeat' first
    | with_reducible assumption
    | with_reducible apply State.modEnc_kept
    | with_reducible apply State.sourceStep_kept
    | with_reducible apply Kept.ite

theorem State.estimates_kept (h : Kept ws sd s) : Kept ws sd (State.estimates s) := by
  unfold State.estimates
  try dsimp only
  repeat' first
    | with_reducible assumption
    | exact id
    | with_reducible apply State.modMotion_kept

theorem State.speedStep_kept (h : Kept ws sd s) : Kept ws sd (State.speedStep s) := by
  unfold State.speedStep
  try dsimp only
  repeat' first
    | with_reducible assumption
    | exact id
    | with_reducible apply State.modMotion_kept
    | with_reducible apply State.moveOdo_kept
    | with_reducible apply Kept.ite

theorem State.takeSpeed_kept (h : Kept ws sd s) (v : Int) (w : Int) : Kept ws sd (State.takeSpeed s v w) := by
  unfold State.takeSpeed
  try dsimp only
  repeat' first
    | with_reducible assumption
    | exact id
    | with_reducible apply State.modMotion_kept
    | with_reducible apply State.latchPair_kept
    | with_reducible apply State.followDir_kept
    | with_reducible apply Kept.ite

/-- A source that takes its direction changes nothing of the unit itself, nor the phase. -/
theorem State.followDir_unit (s : State) : (State.followDir s).unit = s.unit ∧ (State.followDir s).phase = s.phase := by
  have hd (rev : Bool) : (State.setDir s rev).unit = s.unit ∧ (State.setDir s rev).phase = s.phase := by
    unfold State.setDir
    split
    · exact ⟨rfl, rfl⟩
    · simp only [State.notice_unit, State.notice_phase]
      exact ⟨rfl, rfl⟩
  unfold State.followDir
  split
  · exact ⟨rfl, rfl⟩
  split
  · exact hd _
  · exact hd _
  · exact hd _
  · split
    · exact ⟨rfl, rfl⟩
    · exact hd _

/-- Nor does the source that a STRANDED unit takes. -/
theorem State.switchSource_unit (s : State) : (State.switchSource s).unit = s.unit ∧ (State.switchSource s).phase = s.phase := by
  unfold State.switchSource
  split
  · exact ⟨rfl, rfl⟩
  · exact State.followDir_unit _

theorem State.switchSource_kept (h : Kept ws sd s) : Kept ws sd (State.switchSource s) :=
  Kept.ite h (State.followDir_kept (State.modMotion_kept h fun _ => Nat.zero_le _))


/-! ### Machine/Crossings.lean -/

theorem State.popHead_kept (h : Kept ws sd s) (c : Fin 40) : Kept ws sd (State.popHead s c) := by
  unfold State.popHead
  try dsimp only
  repeat' first
    | with_reducible assumption
    | with_reducible apply State.modX_kept

theorem State.missHead_kept (h : Kept ws sd s) (c : Fin 40) (x : Crossing) (d : Int) : Kept ws sd (State.missHead s c x d) := by
  unfold State.missHead
  try dsimp only
  repeat' first
    | with_reducible assumption
    | with_reducible apply State.popHead_kept
    | with_reducible apply State.record_kept
    | with_reducible apply State.notice_kept
    | fail_if_no_progress with_reducible apply Kept.other

theorem State.holdHead_kept (h : Kept ws sd s) (c : Fin 40) (x : Crossing) : Kept ws sd (State.holdHead s c x) := by
  unfold State.holdHead
  try dsimp only
  repeat' first
    | with_reducible assumption
    | with_reducible apply State.popHead_kept
    | with_reducible apply State.modX_kept
    | with_reducible apply State.record_kept
    | with_reducible apply State.notice_kept

theorem State.decideHead_kept (h : Kept ws sd s) (c : Fin 40) (x : Crossing) (ts : ChainTime) :
    Kept ws sd (State.decideHead s c x ts) := by
  unfold State.decideHead
  try dsimp only
  repeat' first
    | with_reducible assumption
    | with_reducible apply State.modX_kept

theorem State.castLate_kept (h : Kept ws sd s) (c : Fin 40) (x : Crossing) (late : Nat) :
    Kept ws sd (State.castLate s c x late) := by
  unfold State.castLate
  try dsimp only
  repeat' first
    | with_reducible assumption
    | with_reducible apply State.record_kept
    | with_reducible apply State.notice_kept
    | fail_if_no_progress with_reducible apply Kept.other

theorem State.castBehind_kept (h : Kept ws sd s) (c : Fin 40) (x : Crossing) (d : Int) :
    Kept ws sd (State.castBehind s c x d) := by
  unfold State.castBehind
  try dsimp only
  repeat' first
    | with_reducible assumption
    | with_reducible apply State.record_kept
    | with_reducible apply State.notice_kept
    | fail_if_no_progress with_reducible apply Kept.other

theorem State.lane_kept (c : Fin 40) (fuel : Nat) : ∀ {s : State}, Kept ws sd s → Kept ws sd (State.lane s c fuel) := by
  induction fuel with
  | zero => exact fun h => h
  | succ n ih =>
    intro s h
    have hd (x : Crossing) (ts : ChainTime) : Kept ws sd (s.decideHead c x ts) := State.decideHead_kept h c x ts
    unfold State.lane
    split
    · exact h
    refine Kept.ite h ?_
    split
    · exact h
    · exact Kept.ite (ih (State.missHead_kept h ..)) (Kept.ite (State.holdHead_kept h ..) (State.castBehind_kept (hd ..) ..))
    · split
      · exact h
      · exact Kept.ite h (Kept.ite (State.holdHead_kept h ..) (Kept.ite (State.castLate_kept (hd ..) ..) (hd ..)))

theorem State.turnAll_kept (h : Kept ws sd s) : Kept ws sd (State.turnAll s) := by
  unfold State.turnAll
  try dsimp only
  repeat' first
    | with_reducible assumption
    | intro _
    | with_reducible apply State.modSol_kept
    | with_reducible apply Kept.foldl

theorem State.countStranded_kept (h : Kept ws sd s) : Kept ws sd (State.countStranded s) := by
  unfold State.countStranded
  try dsimp only
  repeat' first
    | with_reducible assumption
    | exact id
    | exact ⟨rfl, rfl⟩
    | with_reducible apply Kept.ite
    | with_reducible refine Kept.upd ?_ ?_ ?_ ?_ ?_ ?_

theorem State.startLimit_kept (h : Kept ws sd s) (time : Bool) : Kept ws sd (State.startLimit s time) := by
  have h1 : Kept ws sd (((s.staEvt 1).record 0x0C2 63 (w24 (b2n time))).endAll .limit) :=
    State.endAll_kept (State.record_kept (State.staEvt_kept h _) ..) _
  have h2 (t : State) (ht : Kept ws sd t) : Kept ws sd { t with unit := { t.unit with limitAction := true } } :=
    ht.upd ⟨rfl, rfl⟩ id id id id
  exact State.refresh_kept (h2 _ h1)

theorem State.renewDemand_kept (h : Kept ws sd s) (c : Fin 32) : Kept ws sd (State.renewDemand s c) := by
  unfold State.renewDemand
  try dsimp only
  repeat' first
    | with_reducible assumption
    | with_reducible apply State.modSol_kept
    | split

theorem State.castOutput_kept (h : Kept ws sd s) (c : Fin 40) : Kept ws sd (State.castOutput s c) := by
  unfold State.castOutput
  try dsimp only
  repeat' first
    | with_reducible assumption
    | with_reducible apply State.refresh_kept
    | with_reducible apply State.startInterval_kept
    | with_reducible apply State.renewDemand_kept
    | with_reducible apply State.modValve_kept
    | with_reducible apply State.startRun_kept
    | split

theorem State.castKept_kept (h : Kept ws sd s) : Kept ws sd (State.castKept s) := by
  unfold State.castKept
  try dsimp only
  repeat' first
    | with_reducible assumption
    | intro _
    | with_reducible apply State.modX_kept
    | with_reducible apply State.castOutput_kept
    | with_reducible apply Kept.foldl

theorem State.watchWork_kept (h : Kept ws sd s) : Kept ws sd (State.watchWork s) := by
  have h1 : Kept ws sd (if s.domainOn 101 then s.speedStep.estimates else s) :=
    Kept.ite (State.estimates_kept (State.speedStep_kept h)) h
  have h2 (t : State) (ht : Kept ws sd t) : Kept ws sd { t with engine := { t.engine with lastWatch := some t.time } } := ht.other
  have h2 := h2 _ h1
  have h3 := State.countStranded_kept h2
  unfold State.watchWork
  refine Kept.ite h2 ?_
  dsimp only
  split
  · exact State.startLimit_kept h3 _
  · refine Kept.ite h3 (Kept.foldl (fun t c ht => ?_) _ (State.castKept_kept (State.turnAll_kept h3)))
    exact Kept.ite (State.lane_kept c _ ht) ht

theorem State.landCrossing_kept (h : Kept ws sd s) (c : Fin 40) (m : Nat) : Kept ws sd (State.landCrossing s c m) := by
  unfold State.landCrossing
  try dsimp only
  repeat' first
    | with_reducible assumption
    | with_reducible apply State.modX_kept
    | with_reducible apply State.notice_kept
    | split

theorem State.castNow_kept (h : Kept ws sd s) (c : Fin 40) (k : Current) : Kept ws sd (State.castNow s c k) := by
  unfold State.castNow
  try dsimp only
  repeat' first
    | with_reducible assumption
    | with_reducible apply State.modX_kept
    | with_reducible apply State.notice_kept
    | with_reducible apply State.modSol_kept
    | with_reducible apply State.castOutput_kept
    | with_reducible apply State.landCrossing_kept
    | split

theorem State.learn_kept (h : Kept ws sd s) (c : Fin 32) (m : Nat) : Kept ws sd (State.learn s c m) := by
  unfold State.learn
  try dsimp only
  repeat' first
    | with_reducible assumption
    | with_reducible apply State.modX_kept
    | with_reducible apply State.xngEvt_kept
    | with_reducible apply Kept.ite

theorem State.takeDip_kept (h : Kept ws sd s) (c : Fin 32) : Kept ws sd (State.takeDip s c) := by
  unfold State.takeDip
  try dsimp only
  repeat' first
    | with_reducible assumption
    | with_reducible apply State.modSol_kept
    | with_reducible apply State.modX_kept
    | with_reducible apply State.learn_kept
    | with_reducible apply State.landCrossing_kept
    | with_reducible apply State.endPeak_kept
    | split


/-! ### Machine/Banks.lean -/

theorem State.chop_kept (h : Kept ws sd s) (c : Fin 32) : Kept ws sd (State.chop s c) := by
  unfold State.chop
  try dsimp only
  repeat' first
    | with_reducible assumption
    | with_reducible apply State.modSol_kept

theorem State.startBoost_kept (h : Kept ws sd s) (c : Fin 32) (fromVbst : Bool) : Kept ws sd (State.startBoost s c fromVbst) := by
  unfold State.startBoost
  try dsimp only
  repeat' first
    | with_reducible assumption
    | with_reducible apply State.modSol_kept
    | with_reducible apply State.modBank_kept
    | with_reducible apply State.chop_kept

theorem State.bankDiag_kept (h : Kept ws sd s) (b : Fin 8) (k : Nat) (word : String) (data : Word) :
    Kept ws sd (State.bankDiag s b k word data) := by
  unfold State.bankDiag
  try dsimp only
  repeat' first
    | with_reducible assumption
    | with_reducible apply State.modBank_kept
    | with_reducible apply State.record_kept
    | with_reducible apply State.notice_kept

theorem State.boostDiag_kept (h : Kept ws sd s) (k : Nat) (word : String) (vbst : Nat) :
    Kept ws sd (State.boostDiag s k word vbst) := by
  unfold State.boostDiag
  try dsimp only
  repeat' first
    | with_reducible assumption
    | with_reducible apply State.modBoost_kept
    | with_reducible apply State.record_kept
    | with_reducible apply State.notice_kept

theorem State.boostNotReady_kept (h : Kept ws sd s) (b : Fin 8) (c : Fin 32) : Kept ws sd (State.boostNotReady s b c) := by
  unfold State.boostNotReady
  try dsimp only
  repeat' first
    | with_reducible assumption
    | with_reducible apply State.solDiag_kept
    | with_reducible apply State.bankDiag_kept
    | with_reducible apply State.modSol_kept
    | with_reducible apply State.modBank_kept
    | with_reducible apply State.startBoost_kept
    | with_reducible apply State.dequeue_kept
    | with_reducible apply State.missLanding_kept
    | split

theorem State.seeVbst_kept (h : Kept ws sd s) (vbst : Nat) : Kept ws sd (State.seeVbst s vbst) := by
  unfold State.seeVbst
  try dsimp only
  repeat' first
    | with_reducible assumption
    | with_reducible apply State.modBoost_kept

theorem State.gainReady_kept (h : Kept ws sd s) : Kept ws sd (State.gainReady s) := by
  unfold State.gainReady
  try dsimp only
  repeat' first
    | with_reducible assumption
    | intro _
    | with_reducible apply State.startBoost_kept
    | with_reducible apply State.modBoost_kept
    | with_reducible apply Kept.foldl
    | with_reducible apply Kept.ite

theorem State.loseReady_kept (h : Kept ws sd s) (vbst : Nat) : Kept ws sd (State.loseReady s vbst) := by
  unfold State.loseReady
  try dsimp only
  repeat' first
    | with_reducible assumption
    | with_reducible apply State.modBoost_kept
    | with_reducible apply State.boostUnready_kept
    | with_reducible apply State.boostDiag_kept
    | with_reducible apply Kept.ite

theorem State.startOv_kept (h : Kept ws sd s) (vbst : Nat) : Kept ws sd (State.startOv s vbst) := by
  unfold State.startOv
  try dsimp only
  repeat' first
    | with_reducible assumption
    | with_reducible apply State.modBoost_kept
    | with_reducible apply State.boostDiag_kept

theorem State.rejudgeVbst_kept (h : Kept ws sd s) : Kept ws sd (State.rejudgeVbst s) := by
  unfold State.rejudgeVbst
  try dsimp only
  repeat' first
    | with_reducible assumption
    | with_reducible apply State.startOv_kept
    | with_reducible apply State.seeVbst_kept
    | with_reducible apply State.loseReady_kept
    | with_reducible apply State.gainReady_kept
    | with_reducible apply Kept.ite

theorem State.endInterval_kept (h : Kept ws sd s) (c : Fin 32) : Kept ws sd (State.endInterval s c) := by
  unfold State.endInterval
  try dsimp only
  repeat' first
    | with_reducible assumption
    | with_reducible apply State.solDiag_kept
    | with_reducible apply State.modSol_kept
    | with_reducible apply State.offDemand_kept
    | with_reducible apply Kept.ite

theorem State.bankFault_kept (h : Kept ws sd s) (b : Fin 8) : Kept ws sd (State.bankFault s b) := by
  unfold State.bankFault
  try dsimp only
  repeat' first
    | with_reducible assumption
    | intro _
    | with_reducible apply State.solFault_kept
    | with_reducible apply State.refresh_kept
    | with_reducible apply Kept.foldl

theorem State.seeTemp_kept (h : Kept ws sd s) (b : Fin 8) (temp : Int) : Kept ws sd (State.seeTemp s b temp) := by
  unfold State.seeTemp
  try dsimp only
  repeat' first
    | with_reducible assumption
    | with_reducible apply State.modBank_kept
    | with_reducible apply State.bankDiag_kept
    | with_reducible apply Kept.ite

theorem State.tickSpread_kept (h : Kept ws sd s) : Kept ws sd (State.tickSpread s) := by
  unfold State.tickSpread
  try dsimp only
  repeat' first
    | with_reducible assumption
    | with_reducible apply Kept.ite
    | fail_if_no_progress with_reducible apply Kept.other

theorem State.sampleCoil_kept (h : Kept ws sd s) (c : Fin 32) : Kept ws sd (State.sampleCoil s c) := by
  unfold State.sampleCoil
  try dsimp only
  repeat' first
    | with_reducible assumption
    | with_reducible apply State.modSol_kept
    | with_reducible apply Kept.ite

theorem State.sampleCoils_kept (h : Kept ws sd s) : Kept ws sd (State.sampleCoils s) := by
  unfold State.sampleCoils
  try dsimp only
  repeat' first
    | with_reducible assumption
    | intro _
    | with_reducible apply State.sampleCoil_kept
    | with_reducible apply Kept.foldl
    | with_reducible apply Kept.ite

theorem State.markBanks_kept (h : Kept ws sd s) : Kept ws sd (State.markBanks s) := by
  unfold State.markBanks
  try dsimp only
  repeat' first
    | with_reducible assumption
    | fail_if_no_progress with_reducible apply Kept.other

theorem State.tickBoost_kept (h : Kept ws sd s) : Kept ws sd (State.tickBoost s) := by
  unfold State.tickBoost
  try dsimp only
  repeat' first
    | with_reducible assumption
    | with_reducible apply State.modBoost_kept

theorem State.compareCoils_kept (h : Kept ws sd s) : Kept ws sd (State.compareCoils s) := by
  unfold State.compareCoils
  try dsimp only
  repeat' first
    | with_reducible assumption
    | fail_if_no_progress with_reducible apply Kept.other


/-! ### Machine/Valves.lean -/

theorem State.modPwm_kept (h : Kept ws sd s) (f : Pwm → Pwm) : Kept ws sd (State.modPwm s f) := by
  unfold State.modPwm
  try dsimp only
  repeat' first
    | with_reducible assumption
    | fail_if_no_progress with_reducible apply Kept.other

theorem State.sendSync_kept (h : Kept ws sd s) (i : Fin 12) (tick : Nat) : Kept ws sd (State.sendSync s i tick) := by
  unfold State.sendSync
  try dsimp only
  repeat' first
    | with_reducible assumption
    | with_reducible apply State.modSlice_kept
    | split

theorem State.chargeBoots_kept (h : Kept ws sd s) (i : Fin 12) (tick : Nat) : Kept ws sd (State.chargeBoots s i tick) := by
  unfold State.chargeBoots
  try dsimp only
  repeat' first
    | with_reducible assumption
    | intro _
    | with_reducible apply State.modValve_kept
    | with_reducible apply Kept.foldl
    | with_reducible apply Kept.ite

theorem State.endGates_kept (h : Kept ws sd s) (i : Fin 12) (tick : Nat) : Kept ws sd (State.endGates s i tick) := by
  unfold State.endGates
  try dsimp only
  repeat' first
    | with_reducible assumption
    | intro _
    | with_reducible apply State.endPeriodGates_kept
    | with_reducible apply Kept.foldl
    | with_reducible apply Kept.ite

theorem State.formPeriod_kept (h : Kept ws sd s) (i : Fin 12) (tick : Nat) : Kept ws sd (State.formPeriod s i tick) := by
  unfold State.formPeriod
  try dsimp only
  repeat' first
    | with_reducible assumption
    | with_reducible apply State.modSlice_kept

theorem State.syncMiss_kept (h : Kept ws sd s) (i : Fin 12) : Kept ws sd (State.syncMiss s i) := by
  unfold State.syncMiss
  try dsimp only
  repeat' first
    | with_reducible assumption
    | with_reducible apply State.modSlice_kept
    | with_reducible apply State.modPwm_kept
    | with_reducible apply State.record_kept

theorem State.trip_kept (h : Kept ws sd s) (g : Fin 3) : Kept ws sd (State.trip s g) := by
  unfold State.trip
  try dsimp only
  repeat' first
    | with_reducible assumption
    | intro _
    | with_reducible apply State.modPwm_kept
    | with_reducible apply State.record_kept
    | with_reducible apply State.notice_kept
    | with_reducible apply State.endCrossing_kept
    | with_reducible apply State.refresh_kept
    | with_reducible apply Kept.foldl
    | with_reducible apply Kept.ite

theorem State.limitChange_kept (h : Kept ws sd s) (v : Fin 8) (e : ValveEnd) : Kept ws sd (State.limitChange s v e) := by
  unfold State.limitChange
  try dsimp only
  repeat' first
    | with_reducible assumption
    | with_reducible apply State.limitFault_kept
    | with_reducible apply State.refresh_kept
    | with_reducible apply State.arrive_kept
    | split

theorem State.movePos_kept (h : Kept ws sd s) (v : Fin 8) : Kept ws sd (State.movePos s v) := by
  unfold State.movePos
  try dsimp only
  repeat' first
    | with_reducible assumption
    | with_reducible apply State.modValve_kept
    | with_reducible apply Kept.ite

theorem State.positionStop_kept (h : Kept ws sd s) (v : Fin 8) : Kept ws sd (State.positionStop s v) := by
  unfold State.positionStop
  try dsimp only
  repeat' first
    | with_reducible assumption
    | with_reducible apply State.modBridge_kept
    | split

theorem State.positionAct_kept (h : Kept ws sd s) (v : Fin 8) : Kept ws sd (State.positionAct s v) := by
  unfold State.positionAct
  try dsimp only
  repeat' first
    | with_reducible assumption
    | with_reducible apply State.positionStop_kept
    | with_reducible apply State.positionAim_kept
    | split


/-! ### Machine/Pilot.lean -/

theorem State.modPilot_kept (h : Kept ws sd s) (f : Pilot → Pilot) : Kept ws sd (State.modPilot s f) := by
  unfold State.modPilot
  try dsimp only
  repeat' first
    | with_reducible assumption
    | fail_if_no_progress with_reducible apply Kept.other

theorem State.settleLoops_kept (h : Kept ws sd s) : Kept ws sd (State.settleLoops s) := by
  unfold State.settleLoops
  try dsimp only
  repeat' first
    | with_reducible assumption
    | with_reducible apply State.modPilot_kept

theorem State.takeSample_kept (h : Kept ws sd s) (l : Fin 8) : Kept ws sd (State.takeSample s l) := by
  unfold State.takeSample
  try dsimp only
  repeat' first
    | with_reducible assumption
    | with_reducible apply State.modLoop_kept
    | with_reducible apply State.setReg_kept
    | with_reducible apply Kept.ite

theorem State.writeOutput_kept (h : Kept ws sd s) (o : LoopOutput) : Kept ws sd (State.writeOutput s o) := by
  unfold State.writeOutput
  try dsimp only
  repeat' first
    | with_reducible assumption
    | with_reducible apply State.modSlice_kept
    | with_reducible apply State.modValve_kept
    | with_reducible apply State.positionAct_kept
    | with_reducible apply State.refresh_kept
    | split

theorem State.oweTraces_kept (h : Kept ws sd s) (l : Fin 8) : Kept ws sd (State.oweTraces s l) := by
  unfold State.oweTraces
  try dsimp only
  repeat' first
    | with_reducible assumption
    | with_reducible apply State.modPilot_kept


/-! ### Machine/Ports.lean -/

theorem State.modChain_kept (h : Kept ws sd s) {f : Chain → Chain} (hf : s.chain.Bounded → (f s.chain).Bounded) : Kept ws sd (State.modChain s f) :=
  h.upd ⟨rfl, rfl⟩ hf id id id

theorem State.insertUp_kept (h : Kept ws sd s) (w : WireItem) : Kept ws sd (State.insertUp s w) := by
  unfold State.insertUp
  try dsimp only
  repeat' first
    | with_reducible assumption
    | exact id
    | exact ⟨rfl, rfl⟩
    | with_reducible refine Kept.upd ?_ ?_ ?_ ?_ ?_ ?_

theorem State.tideBad_kept (h : Kept ws sd s) : Kept ws sd (State.tideBad s) := by
  unfold State.tideBad
  try dsimp only
  repeat' first
    | with_reducible assumption
    | with_reducible apply State.record_kept
    | with_reducible apply State.notice_kept

theorem State.takeTide_kept (h : Kept ws sd s) (hn : s.manil.tides.length < 4) (target : Word) : Kept ws sd (State.takeTide s target) :=
  h.upd ⟨rfl, rfl⟩ id (fun hm => ⟨by simp; omega, hm.2⟩) id id

theorem State.judgeEchoes_kept (h : Kept ws sd s) : Kept ws sd (State.judgeEchoes s) :=
  State.modChain_kept h fun hc => by split; exact hc; split <;> exact hc

theorem State.takeEnum_kept (h : Kept ws sd s) (func count delay : Nat) (rate : Byte) :
    Kept ws sd (State.takeEnum s func count delay rate) := by
  unfold State.takeEnum
  dsimp only
  refine Kept.ite (State.modChain_kept (State.queueUp_kept (State.modChain_kept (State.sendDn_kept (State.modChain_kept (State.judgeEchoes_kept h) ?_) _) ?_) ?_) ?_)
    (State.modChain_kept (State.sendDn_kept (State.modChain_kept (State.judgeEchoes_kept h) ?_) _) ?_)
  all_goals first
    | exact id
    | (intro hc; split <;> exact hc)
    | exact fun _ e => nomatch e

theorem State.enumPass_kept (h : Kept ws sd s) (seq : SeqArrival) : Kept ws sd (State.enumPass s seq) := by
  unfold State.enumPass
  try dsimp only
  repeat' first
    | with_reducible assumption
    | with_reducible apply State.sendDn_kept
    | with_reducible apply State.seqError_kept
    | with_reducible apply State.takeEnum_kept
    | split

theorem State.enumTurned_kept (h : Kept ws sd s) : Kept ws sd (State.enumTurned s) := by
  unfold State.enumTurned
  try dsimp only
  repeat' first
    | with_reducible assumption
    | exact id
    | with_reducible apply State.modChain_kept

theorem State.sendTurn_kept (h : Kept ws sd s) (crc : Byte) (seq : Byte) : Kept ws sd (State.sendTurn s crc seq) := by
  unfold State.sendTurn
  try dsimp only
  repeat' first
    | with_reducible assumption
    | contradiction
    | intro _
    | with_reducible apply State.queueUp_kept
    | with_reducible apply Kept.ite

theorem State.sendBack_kept (h : Kept ws sd s) (p : Port) (code : Byte) (e : Port) : Kept ws sd (State.sendBack s p code e) := by
  unfold State.sendBack
  try dsimp only
  repeat' first
    | with_reducible assumption
    | contradiction
    | intro _
    | with_reducible apply State.queueUp_kept
    | with_reducible apply State.sendDn_kept
    | with_reducible apply Kept.ite

theorem State.takeHelmq_kept (h : Kept ws sd s) (p : Port) (e : Port) (bytes : List Byte) :
    Kept ws sd (State.takeHelmq s p e bytes) := by
  unfold State.takeHelmq
  try dsimp only
  repeat' first
    | with_reducible assumption
    | exact id
    | with_reducible apply State.forward_kept
    | with_reducible apply State.modChain_kept
    | with_reducible apply State.sendBack_kept
    | with_reducible apply State.chnEvt_kept
    | split

theorem State.helmSeq_kept (h : Kept ws sd s) (p : Port) (code : Byte) (seq : SeqArrival) {f : State → Port → List Byte → State}
    (hf : ∀ e bytes, Kept ws sd (f s e bytes)) : Kept ws sd (State.helmSeq s p code seq f) := by
  unfold State.helmSeq
  split
  · exact Kept.ite (State.frameError_kept h _) (State.frameError_kept (State.forward_kept h ..) _)
  split
  · exact State.seqError_kept (State.forward_kept h ..) ..
  split
  · exact hf ..
  · exact State.forward_kept h ..

end Sys2Proof.Machine
end

