-- ==== Sys2Proof/Laws/KeptPower.lean ====
section
/-! SUPPORT. What is kept (Laws/Kept.lean) by latches, tides, the recorder, resets, boots and supplies: one lemma for each operation. -/
namespace Sys2Proof.Machine

open Sys2Proof

variable {ws : List Instr} {sd : Bool} {s : State}

/-! ### Machine/Stops.lean -/

theorem State.modUnit_kept (h : Kept ws sd s) {f : UnitStatus → UnitStatus} (hf : (f s.unit).st = s.unit.st ∧ (f s.unit).safe = s.unit.safe) :
    Kept ws sd (State.modUnit s f) := h.upd hf id id id id

theorem State.killScope_kept (h : Kept ws sd s) (scope : Fin 40 → Bool) (cause : EndCause) :
    Kept ws sd (State.killScope s scope cause) := by
  unfold State.killScope
  try dsimp only
  repeat' first
    | with_reducible assumption
    | intro _
    | with_reducible apply State.endCrossing_kept
    | with_reducible apply State.modX_kept
    | with_reducible apply State.killBanks_kept
    | with_reducible apply State.refresh_kept
    | with_reducible apply Kept.foldl
    | with_reducible apply Kept.ite

theorem State.dropLimit_kept (h : Kept ws sd s) : Kept ws sd (State.dropLimit s) := by
  unfold State.dropLimit
  try dsimp only
  repeat' first
    | with_reducible assumption
    | exact ⟨rfl, rfl⟩
    | with_reducible apply State.modUnit_kept

theorem State.latchMoors_kept (h : Kept ws sd s) (cause : StateCause) : Kept ws sd (State.latchMoors s cause) := by
  unfold State.latchMoors
  split
  · rename_i ha
    refine State.refresh_kept (State.staEvt_kept (State.enter_kept h.weaken _ _ fun e ph ns => ?_) _)
    rcases h.safe e ph ns with hs | hs <;> simp [hs, UnitState.armed] at ha
  · exact h

theorem State.latchKill_kept (h : Kept ws sd s) : Kept ws sd (State.latchKill s) := by
  unfold State.latchKill
  try dsimp only
  repeat' first
    | with_reducible assumption
    | exact ⟨rfl, rfl⟩
    | with_reducible apply State.modUnit_kept
    | with_reducible apply State.dropLimit_kept
    | with_reducible apply State.killScope_kept
    | with_reducible apply State.closeLevels_kept
    | with_reducible apply State.markStale_kept
    | with_reducible apply State.latchMoors_kept
    | with_reducible apply Kept.ite

theorem State.sfpEvt_kept (h : Kept ws sd s) (k : Nat) : Kept ws sd (State.sfpEvt s k) := by
  unfold State.sfpEvt
  try dsimp only
  repeat' first
    | with_reducible assumption
    | fail_if_no_progress with_reducible apply Kept.other

theorem State.pairStops_kept (h : Kept ws sd s) (p : Fin 4) : Kept ws sd (State.pairStops s p) := by
  unfold State.pairStops
  try dsimp only
  repeat' first
    | with_reducible assumption
    | with_reducible apply State.modPair_kept
    | with_reducible apply State.sfpEvt_kept
    | with_reducible apply State.record_kept
    | with_reducible apply State.notice_kept
    | with_reducible apply State.dropLimit_kept
    | with_reducible apply State.killScope_kept
    | with_reducible apply State.closeLevels_kept
    | with_reducible apply State.markStale_kept
    | with_reducible apply State.latchMoors_kept
    | split

theorem State.pairRuns_kept (h : Kept ws sd s) (p : Fin 4) : Kept ws sd (State.pairRuns s p) := by
  unfold State.pairRuns
  try dsimp only
  repeat' first
    | with_reducible assumption
    | with_reducible apply State.sfpEvt_kept
    | with_reducible apply State.record_kept
    | with_reducible apply State.notice_kept
    | with_reducible apply State.refresh_kept

theorem State.followReadings_kept (h : Kept ws sd s) (p : Fin 4) : Kept ws sd (State.followReadings s p) := by
  unfold State.followReadings
  try dsimp only
  repeat' first
    | with_reducible assumption
    | with_reducible apply State.modPair_kept

theorem State.startPair_kept (h : Kept ws sd s) (p : Fin 4) : Kept ws sd (State.startPair s p) := by
  unfold State.startPair
  try dsimp only
  repeat' first
    | with_reducible assumption
    | with_reducible apply State.modPair_kept
    | with_reducible apply State.followReadings_kept
    | with_reducible apply State.pairStops_kept
    | with_reducible apply Kept.ite

theorem State.settlePairs_kept (h : Kept ws sd s) : Kept ws sd (State.settlePairs s) := by
  unfold State.settlePairs
  try dsimp only
  repeat' first
    | with_reducible assumption
    | intro _
    | with_reducible apply State.startPair_kept
    | with_reducible apply State.modPair_kept
    | with_reducible apply State.refresh_kept
    | with_reducible apply Kept.foldl
    | with_reducible apply Kept.ite

theorem State.discrepSafe_kept (h : Kept ws sd s) : Kept ws sd (State.discrepSafe s) := by
  have add (t : State) (ht : Kept ws false t) : Kept ws false (t.modUnit fun u => { u with safe := raise u.safe 2 }) := ht.free
  unfold State.discrepSafe
  dsimp only
  split
  · rename_i hs
    exact ⟨h.pending, h.stores.other, fun _ _ _ => .inl hs⟩
  · rename_i hs
    exact ⟨h.pending, h.stores.other, fun _ _ _ => .inr hs⟩
  · have h1 := add _ (State.markStale_kept (State.closeLevels_kept (State.endAll_kept h.weaken .stop)))
    split
    · exact State.refresh_kept (State.enterSafe_kept h1 _)
    · rename_i hp
      exact State.refresh_kept ⟨h1.pending, h1.stores, fun _ ph => absurd ph hp⟩

theorem State.declareDiscrep_kept (h : Kept ws sd s) (p : Fin 4) : Kept ws sd (State.declareDiscrep s p) := by
  unfold State.declareDiscrep
  try dsimp only
  repeat' first
    | with_reducible assumption
    | with_reducible apply State.modPair_kept
    | with_reducible apply State.sfpEvt_kept
    | with_reducible apply State.record_kept
    | with_reducible apply State.notice_kept
    | with_reducible apply State.dropLimit_kept
    | with_reducible apply State.killScope_kept
    | with_reducible apply State.discrepSafe_kept
    | with_reducible apply Kept.ite


/-! ### Machine/Apply.lean -/

theorem State.modPower_kept (h : Kept ws sd s) (f : Power → Power) : Kept ws sd (State.modPower s f) := by
  unfold State.modPower
  try dsimp only
  repeat' first
    | with_reducible assumption
    | fail_if_no_progress with_reducible apply Kept.other

theorem State.clearDomain_kept (h : Kept ws sd s) (d : Nat) : Kept ws sd (State.clearDomain s d) := by
  have hx : Kept ws sd { s with motion := s.motion.clear, engine := s.engine.clear } := h.upd ⟨rfl, rfl⟩ id id (fun _ => Nat.zero_le _) id
  have hc : Kept ws sd { s with manil := { s.manil with conLine := [], conBad := false, conTx := [] } } := h.upd ⟨rfl, rfl⟩ id id id id
  unfold State.clearDomain
  refine Kept.dite (fun _ => State.modSol_kept (State.releaseArbiter_kept (State.dequeue_kept h _) _) ..) fun _ => ?_
  refine Kept.dite (fun _ => State.modBank_kept h ..) fun _ => Kept.dite (fun _ => State.modValve_kept h ..) fun _ => ?_
  refine Kept.dite (fun _ => State.modSlice_kept h ..) fun _ => Kept.dite (fun _ => State.modEnc_kept h ..) fun _ => ?_
  refine Kept.dite (fun _ => State.modFin_kept h ..) fun _ => Kept.dite (fun _ => State.modPair_kept h ..) fun _ => ?_
  refine Kept.dite (fun _ => State.modLoop_kept h ..) fun _ => Kept.dite (fun _ => State.modTrace_kept h ..) fun _ => ?_
  split
  · exact hx
  · exact State.modPort_kept h ..
  · exact State.modPort_kept h ..
  · exact hc
  · exact State.modBoost_kept (Kept.ite (State.boostUnready_kept h) h) _
  · exact State.modPilot_kept h _
  · exact h

theorem State.domainOff_kept (h : Kept ws sd s) (d : Nat) : Kept ws sd (State.domainOff s d) := by
  unfold State.domainOff
  try dsimp only
  repeat' first
    | with_reducible assumption
    | with_reducible apply State.modPower_kept
    | with_reducible apply State.clearDomain_kept
    | with_reducible apply State.modPwm_kept
    | with_reducible apply State.record_kept
    | with_reducible apply Kept.ite

theorem State.preset_kept (h : Kept ws sd s) (v : Word) : Kept ws sd (State.preset s v) :=
  State.record_kept (State.odoEvt_kept (State.markStale_kept (State.modMotion_kept h fun _ => Nat.zero_le _)) _) _ _ _ _

theorem State.domainUp_kept (h : Kept ws sd s) (d : Nat) : Kept ws sd (State.domainUp s d) := by
  have h1 := State.modPower_kept h fun p => { p with on := raise p.on d }
  have hu (t : State) (ht : Kept ws sd t) (c : Prop) [Decidable c] :
      Kept ws sd (t.modMotion fun m => (if c then m.useSpeed s.clk else m).takePreset) :=
    State.modMotion_kept ht fun hm => by split <;> exact hm
  unfold State.domainUp
  refine Kept.ite ?_ (Kept.dite (fun _ => State.modEnc_kept h1 ..) fun _ => Kept.dite (fun _ => State.modSol_kept h1 ..) fun _ => h1)
  dsimp only
  refine State.followDir_kept ?_
  have h2 := hu _ (Kept.foldl (fun t c ht => State.modX_kept ht c fun x => { x with l8 := 8 * s.lat c }) allChans h1)
  split
  · exact State.preset_kept (h2 _) _
  · exact h2 _

theorem State.checkBoth_kept (h : Kept ws sd s) : Kept ws sd (State.checkBoth s) := by
  unfold State.checkBoth
  try dsimp only
  repeat' first
    | with_reducible assumption
    | intro _
    | with_reducible apply State.limitFault_kept
    | with_reducible apply Kept.foldl
    | with_reducible apply Kept.ite

theorem State.settleDomains_kept (h : Kept ws sd s) : Kept ws sd (State.settleDomains s) := by
  unfold State.settleDomains
  try dsimp only
  repeat' first
    | with_reducible assumption
    | with_reducible apply State.settlePairs_kept
    | with_reducible apply State.settleLoops_kept
    | with_reducible apply State.checkBoth_kept
    | with_reducible apply State.refresh_kept

theorem State.switchDomains_kept (h : Kept ws sd s) : Kept ws sd (State.switchDomains s) := by
  unfold State.switchDomains
  try dsimp only
  repeat' first
    | with_reducible assumption
    | intro _
    | with_reducible apply State.domainOff_kept
    | with_reducible apply State.modPower_kept
    | with_reducible apply State.settleDomains_kept
    | with_reducible apply Kept.foldl

theorem State.switchAllOn_kept (h : Kept ws sd s) : Kept ws sd (State.switchAllOn s) := by
  unfold State.switchAllOn
  try dsimp only
  repeat' first
    | with_reducible assumption
    | intro _
    | with_reducible apply State.domainUp_kept
    | with_reducible apply State.modPower_kept
    | with_reducible apply State.settleDomains_kept
    | with_reducible apply Kept.foldl

theorem State.applyFins_kept (h : Kept ws sd s) (o : State) : Kept ws sd (State.applyFins s o) := by
  unfold State.applyFins
  try dsimp only
  repeat' first
    | with_reducible assumption
    | intro _
    | with_reducible apply State.modFin_kept
    | with_reducible apply Kept.foldl
    | with_reducible apply Kept.ite

theorem State.applyEncs_kept (h : Kept ws sd s) (o : State) : Kept ws sd (State.applyEncs s o) := by
  unfold State.applyEncs
  try dsimp only
  repeat' first
    | with_reducible assumption
    | intro _
    | with_reducible apply State.modEnc_kept
    | with_reducible apply Kept.foldl
    | with_reducible apply Kept.ite

theorem State.applyOdo_kept (h : Kept ws sd s) (o : State) (preset : Option Word) : Kept ws sd (State.applyOdo s o preset) := by
  have h1 : Kept ws sd (if fld (o.reg Reg.odoCfg) 0 4 = fld (s.reg Reg.odoCfg) 0 4 then s
      else s.modMotion fun m => { m with pairs := [], moving := false, vel := {}, acc := {}, turn := m.pos, rem := 0 }) :=
    Kept.ite h (State.modMotion_kept h fun _ => Nat.zero_le _)
  have h2 (t : State) (ht : Kept ws sd t) :
      Kept ws sd (if t.speedInUse && !o.speedInUse then t.modMotion fun m => m.useSpeed s.clk else t) :=
    Kept.ite (State.modMotion_kept ht id) ht
  unfold State.applyOdo
  refine State.followDir_kept (Kept.ite (State.switchSource_kept ?_) ?_)
  all_goals
    split
    · exact Kept.ite (State.preset_kept (h2 _ h1) _) (State.modMotion_kept (h2 _ h1) id)
    · exact h2 _ h1

theorem State.applyLat_kept (h : Kept ws sd s) (o : State) (written : Nat → Bool) : Kept ws sd (State.applyLat s o written) := by
  unfold State.applyLat
  try dsimp only
  repeat' first
    | with_reducible assumption
    | intro _
    | with_reducible apply State.modX_kept
    | with_reducible apply State.modValve_kept
    | with_reducible apply Kept.foldl
    | with_reducible apply Kept.ite

theorem State.applyValves_kept (h : Kept ws sd s) (o : State) : Kept ws sd (State.applyValves s o) := by
  unfold State.applyValves
  try dsimp only
  repeat' first
    | with_reducible assumption
    | intro _
    | with_reducible apply State.modValve_kept
    | with_reducible apply Kept.foldl
    | with_reducible apply Kept.ite

theorem State.applyAin_kept (h : Kept ws sd s) (o : State) : Kept ws sd (State.applyAin s o) := by
  unfold State.applyAin
  try dsimp only
  repeat' first
    | with_reducible assumption
    | with_reducible apply State.modPilot_kept

theorem State.applyFlt_kept (h : Kept ws sd s) (o : State) : Kept ws sd (State.applyFlt s o) := by
  unfold State.applyFlt
  try dsimp only
  repeat' first
    | with_reducible assumption
    | intro _
    | with_reducible apply State.trip_kept
    | with_reducible apply Kept.foldl
    | with_reducible apply Kept.ite

theorem State.forcePairs_kept (h : Kept ws sd s) : Kept ws sd (State.forcePairs s) := by
  unfold State.forcePairs
  try dsimp only
  repeat' first
    | with_reducible assumption
    | intro _
    | with_reducible apply State.setReg_kept
    | with_reducible apply Kept.foldl
    | with_reducible apply Kept.ite

theorem State.applyPairs_kept (h : Kept ws sd s) (o : State) : Kept ws sd (State.applyPairs s o) := by
  unfold State.applyPairs
  try dsimp only
  repeat' first
    | with_reducible assumption
    | intro _
    | with_reducible apply State.startPair_kept
    | with_reducible apply State.followReadings_kept
    | with_reducible apply State.pairStops_kept
    | with_reducible apply State.pairRuns_kept
    | with_reducible apply State.killScope_kept
    | with_reducible apply Kept.foldl
    | with_reducible apply Kept.ite

theorem State.applyCkout_kept (h : Kept ws sd s) (o : State) : Kept ws sd (State.applyCkout s o) := by
  unfold State.applyCkout
  try dsimp only
  repeat' first
    | with_reducible assumption
    | with_reducible apply Kept.ite
    | fail_if_no_progress with_reducible apply Kept.other

theorem State.tickCkout_kept (h : Kept ws sd s) : Kept ws sd (State.tickCkout s) := by
  unfold State.tickCkout
  try dsimp only
  repeat' first
    | with_reducible assumption
    | fail_if_no_progress with_reducible apply Kept.other

theorem State.vbatRises_kept (h : Kept ws sd s) (vbat : Nat) : Kept ws sd (State.vbatRises s vbat) := by
  unfold State.vbatRises
  try dsimp only
  repeat' first
    | with_reducible assumption
    | with_reducible apply State.modPower_kept
    | with_reducible apply State.pwrEvt_kept
    | with_reducible apply State.refresh_kept
    | with_reducible apply Kept.ite

theorem State.seeVhld_kept (h : Kept ws sd s) (vhld : Nat) : Kept ws sd (State.seeVhld s vhld) := by
  unfold State.seeVhld
  try dsimp only
  repeat' first
    | with_reducible assumption
    | with_reducible apply State.modPower_kept

theorem State.applyThresholds_kept (h : Kept ws sd s) (o : State) : Kept ws sd (State.applyThresholds s o) := by
  unfold State.applyThresholds
  try dsimp only
  repeat' first
    | with_reducible assumption
    | with_reducible apply State.vbatRises_kept
    | with_reducible apply State.seeVhld_kept
    | with_reducible apply State.rejudgeVbst_kept
    | with_reducible apply Kept.ite
    | fail_if_no_progress with_reducible apply Kept.other

theorem State.applyWrites_kept (h : Kept ws sd s) (l : List (RegAddr × Word)) : Kept ws sd (State.applyWrites s l) := by
  have hw : Kept ws sd (l.foldl (fun t w => t.setReg w.1.toNat w.2) s) := Kept.foldl (fun t w ht => State.setReg_kept ht ..) l h
  have hc (t : State) (ht : Kept ws sd t) (c : Bool) :
      Kept ws sd (if c then { t with manil := { t.manil with conLine := [], conBad := false } } else t) :=
    Kept.ite (ht.upd ⟨rfl, rfl⟩ id id id id) ht
  unfold State.applyWrites
  refine Kept.ite (State.switchDomains_kept (hc _ ?_ _)) (State.settleDomains_kept (hc _ ?_ _))
  all_goals
    exact State.applyThresholds_kept (State.applyCkout_kept (State.applyFlt_kept (State.applyPairs_kept (State.applyValves_kept
      (State.applyAin_kept (State.applyLat_kept (State.applyOdo_kept (State.applyEncs_kept (State.applyFins_kept
        (State.forcePairs_kept hw) _) _) ..) _ _) _) _) _) _) _) _

theorem State.unstage_kept (h : Kept ws sd s) : Kept ws sd (State.unstage s) :=
  h.upd ⟨rfl, rfl⟩ id (fun hm => ⟨by simpa using hm.1, hm.2⟩) id id


/-! ### Machine/Log.lean -/

theorem State.modRec_kept (h : Kept ws sd s) {f : Recorder → Recorder} (hf : s.recorder.Bounded → (f s.recorder).Bounded) : Kept ws sd (State.modRec s f) :=
  h.upd ⟨rfl, rfl⟩ id id id hf

theorem State.modCal_kept (h : Kept ws sd s) (f : Calendar → Calendar) : Kept ws sd (State.modCal s f) := by
  unfold State.modCal
  try dsimp only
  repeat' first
    | with_reducible assumption
    | fail_if_no_progress with_reducible apply Kept.other

theorem State.stepOptime_kept (h : Kept ws sd s) : Kept ws sd (State.stepOptime s) := by
  unfold State.stepOptime
  try dsimp only
  repeat' first
    | with_reducible assumption
    | exact id
    | with_reducible apply State.modRec_kept
    | with_reducible apply State.record_kept
    | with_reducible apply Kept.ite

theorem State.saveCounts_kept (h : Kept ws sd s) : Kept ws sd (State.saveCounts s) := by
  unfold State.saveCounts
  try dsimp only
  repeat' first
    | with_reducible assumption
    | fail_if_no_progress with_reducible apply Kept.other


/-! ### Machine/Reset.lean -/

theorem State.modRst_kept (h : Kept ws sd s) (f : ResetCtl → ResetCtl) : Kept ws sd (State.modRst s f) := by
  unfold State.modRst
  try dsimp only
  repeat' first
    | with_reducible assumption
    | fail_if_no_progress with_reducible apply Kept.other

theorem State.clearReach1_kept (h : Kept ws false s) : Kept ws false (State.clearReach1 s) :=
  ⟨h.pending, ⟨h.stores.regs, Chain.dropReplies_bounded h.stores.chain, Manil.none_bounded rfl rfl,
    Motion.returnSource_bounded h.stores.motion, h.stores.recorder⟩, fun e => nomatch e⟩

theorem State.clearUnit_kept (h : Kept ws false s) (on : BitVec 114) : Kept ws false (State.clearUnit s on) :=
  ⟨h.pending, ⟨rfl, Nat.zero_le _, Manil.none_bounded rfl rfl, Nat.zero_le _, Nat.zero_le _, h.stores.recorder.2⟩, fun e => nomatch e⟩

theorem State.clearReach2_kept (h : Kept ws false s) : Kept ws false (State.clearReach2 s) :=
  have h1 := State.clearUnit_kept h (s.power.on &&& keptDomains)
  ⟨h1.pending, ⟨h1.stores.regs, Nat.zero_le _, h1.stores.manil, h1.stores.motion, h1.stores.recorder⟩, fun e => nomatch e⟩

theorem State.clearReach3_kept (h : Kept ws false s) : Kept ws false (State.clearReach3 s) :=
  (State.clearReach2_kept h).other

theorem State.clearReach4_kept (h : Kept ws false s) : Kept ws false (State.clearReach4 s) :=
  (State.clearReach3_kept h).upd ⟨rfl, rfl⟩ id id id id

theorem State.clearReach_kept (h : Kept ws false s) (level : Nat) : Kept ws false (State.clearReach s level) := by
  unfold State.clearReach
  split
  · exact State.clearReach4_kept h
  · exact State.clearReach3_kept h
  · exact State.clearReach2_kept h
  · exact State.clearReach1_kept h

theorem State.resetAt_kept (h : Kept ws sd s) (cause level lowUs : Nat) : Kept ws sd (State.resetAt s cause level lowUs) := by
  have h1 (f : ResetCtl → ResetCtl) (n : Nat) (b : Bool) : Kept ws sd { (s.clearReach n).modRst f with
      phase := .inReset, chain := ((s.clearReach n).modRst f).chain.startGangway b } :=
    have h := State.modRst_kept (State.clearReach_kept h.weaken n) f
    ⟨h.pending, ⟨h.stores.regs, by cases b <;> exact h.stores.chain, h.stores.manil, h.stores.motion, h.stores.recorder⟩, nofun⟩
  exact State.refresh_kept (h1 _ _ _)

theorem State.countFailed_kept (h : Kept ws sd s) (choice : BootChoice) : Kept ws sd (State.countFailed s choice) := by
  unfold State.countFailed
  try dsimp only
  repeat' first
    | with_reducible assumption
    | with_reducible apply State.record_kept
    | split
    | fail_if_no_progress with_reducible apply Kept.other

theorem State.assertReset_kept (h : Kept ws sd s) (cause : Nat) (level : Nat) (lowUs : Nat) :
    Kept ws sd (State.assertReset s cause level lowUs) := by
  unfold State.assertReset
  try dsimp only
  repeat' first
    | with_reducible assumption
    | with_reducible apply State.modRst_kept
    | with_reducible apply State.resetAt_kept
    | with_reducible apply State.countFailed_kept
    | with_reducible apply Kept.ite

theorem State.railAbsent_kept (h : Kept ws sd s) (lowUs : Nat) : Kept ws sd (State.railAbsent s lowUs) := by
  unfold State.railAbsent
  try dsimp only
  repeat' first
    | with_reducible assumption
    | exact id
    | exact ⟨rfl, rfl⟩
    | with_reducible refine Kept.upd ?_ ?_ ?_ ?_ ?_ ?_

theorem State.cutHandover_kept (h : Kept ws sd s) : Kept ws sd (State.cutHandover s) := by
  unfold State.cutHandover
  split
  · exact h.upd ⟨rfl, rfl⟩ id id id fun hr => ⟨hr.1, Nat.le_trans (List.takeWhile_prefix _).length_le hr.2⟩
  · exact h


/-! ### Machine/Boot.lean -/

theorem State.strapDebug_kept (h : Kept ws sd s) : Kept ws sd (State.strapDebug s) := by
  unfold State.strapDebug
  try dsimp only
  repeat' first
    | with_reducible assumption
    | with_reducible apply State.setReg_kept

theorem State.strapBaud_kept (h : Kept ws sd s) : Kept ws sd (State.strapBaud s) := by
  unfold State.strapBaud
  try dsimp only
  repeat' first
    | with_reducible assumption
    | with_reducible apply State.setReg_kept

theorem State.countPower_kept (h : Kept ws sd s) : Kept ws sd (State.countPower s) := by
  unfold State.countPower
  try dsimp only
  repeat' first
    | with_reducible assumption
    | exact id
    | with_reducible apply State.modRec_kept
    | with_reducible apply State.record_kept
    | with_reducible apply Kept.ite

theorem State.reverseWake_kept (h : Kept ws sd s) : Kept ws sd (State.reverseWake s) := by
  have h2 : Kept ws false (((s.pwrEvt 0).record 0x002 63 0).modRec Recorder.commitAll |>.clearUnit 0) :=
    State.clearUnit_kept (State.modRec_kept (State.record_kept (State.pwrEvt_kept h.weaken _) ..) fun _ => Recorder.commitAll_bounded _) _
  exact ⟨h2.pending, ⟨h2.stores.regs, h2.stores.chain, h2.stores.manil, h2.stores.motion, h2.stores.recorder⟩, nofun⟩

theorem State.readyForBoot_kept (h : Kept ws sd s) : Kept ws sd (State.readyForBoot s) := by
  have h1 := State.record_kept h 0x001 63 (w24 (s.power.wake.code + 4 * b2n s.power.wakeDown)) none
  exact ⟨h1.pending, ⟨h1.stores.regs, h1.stores.chain, h1.stores.manil, h1.stores.motion, h1.stores.recorder⟩, nofun⟩

theorem State.choosePair_kept (h : Kept ws sd s) : Kept ws sd (State.choosePair s) := by
  unfold State.choosePair
  try dsimp only
  repeat' first
    | with_reducible assumption
    | with_reducible apply State.record_kept
    | split
    | fail_if_no_progress with_reducible apply Kept.other

theorem State.loadSaved_kept (h : Kept ws sd s) : Kept ws sd (State.loadSaved s) := by
  unfold State.loadSaved
  try dsimp only
  repeat' first
    | with_reducible assumption
    | intro _
    | with_reducible apply State.setReg_kept
    | with_reducible apply State.strapDebug_kept
    | with_reducible apply State.forcePairs_kept
    | with_reducible apply State.domainOff_kept
    | with_reducible apply State.switchAllOn_kept
    | with_reducible apply State.followDir_kept
    | with_reducible apply State.modPower_kept
    | with_reducible apply Kept.foldl
    | fail_if_no_progress with_reducible apply Kept.other

theorem State.tripActive_kept (h : Kept ws sd s) : Kept ws sd (State.tripActive s) := by
  unfold State.tripActive
  try dsimp only
  repeat' first
    | with_reducible assumption
    | intro _
    | with_reducible apply State.trip_kept
    | with_reducible apply Kept.foldl
    | with_reducible apply Kept.ite

theorem State.tellReset_kept (h : Kept ws sd s) (cold : Bool) : Kept ws sd (State.tellReset s cold) := by
  unfold State.tellReset
  try dsimp only
  repeat' first
    | with_reducible assumption
    | with_reducible apply State.record_kept
    | with_reducible apply State.notice_kept
    | with_reducible apply Kept.ite

theorem State.enterBooted_kept (h : Kept ws false s) (cold : Bool) : Kept ws sd (State.enterBooted s cold) := by
  unfold State.enterBooted State.bootState
  cases hb : s.boot.selfTest with
  | some n =>
    have ht : Kept ws false { s with unit := { s.unit with safe := raise s.unit.safe 0 } } := h.free
    simp only [Option.isSome_some, if_true]
    exact State.enterSafe_kept (State.closeLevels_kept (State.markStale_kept (Kept.ite (State.record_kept ht ..) ht))) _
  | none =>
    simp only [Option.isSome_none, Bool.false_eq_true, if_false]
    split
    · exact State.enter_kept h _ _ fun _ _ _ => .inr rfl
    split
    · rename_i hs
      exact State.enter_kept h _ _ fun _ _ ns => absurd hs ns
    · exact State.enterSafe_kept (State.closeLevels_kept (State.markStale_kept h)) _

theorem State.endBoot_kept (h : Kept ws sd s) : Kept ws sd (State.endBoot s) := by
  have h1 (a : Boot) (r : ResetCtl) (o : Owner) (m : Motion) (c : Chain) (hm : m.Bounded) (hc : c.Bounded) :
      Kept ws false { s with phase := .running, boot := a, rst := r, owner := o, motion := m, chain := c } :=
    ⟨h.pending, ⟨h.stores.regs, hc, h.stores.manil, hm, h.stores.recorder⟩, nofun⟩
  have hm : (if s.rst.coldBoot then s.motion.useSpeed s.clk else s.motion : Motion).Bounded := by
    split <;> exact h.stores.motion
  have h2 := State.enterBooted_kept (sd := sd) (State.tellReset_kept (h1 { s.boot with fails := 0 } { s.rst with coldBoot := false }
    (if s.rst.coldBoot then
      { s.owner with chain := s.owner.chain.serveAgain (s.clk + 60000000), console := s.owner.console.serveAgain (s.clk + 60000000) }
      else s.owner) _ { s.chain with freeEnd := s.chain.freeEnd || !s.chain.dnLink }
    hm h.stores.chain) s.rst.coldBoot) s.rst.coldBoot
  unfold State.endBoot
  exact State.tripActive_kept (State.settleDomains_kept (State.modRec_kept (Kept.ite (State.notice_kept h2 _) h2) id))

theorem State.wakeUp_kept (h : Kept ws sd s) (src : WakeSource) : Kept ws sd (State.wakeUp s src) := by
  have h1 : Kept ws sd (if s.clk < s.power.downUntil then (s.pwrEvt 1).modPower fun p => { p with wakeDown := true } else s) :=
    Kept.ite (State.modPower_kept (State.pwrEvt_kept h _) _) h
  exact ⟨h1.pending, ⟨h1.stores.regs, h1.stores.chain, h1.stores.manil, h1.stores.motion, h1.stores.recorder⟩, nofun⟩


/-! ### Machine/Supply.lean -/

theorem State.startHandover_kept (h : Kept ws sd s) : Kept ws sd (State.startHandover s) :=
  State.refresh_kept (State.modPower_kept (State.saveCounts_kept (State.modRec_kept (State.record_kept h 0x006 63 (w24 s.unit.st.code) none)
    fun _ => Recorder.commitAll_bounded _)) _)

theorem State.actHandover_kept (h : Kept ws sd s) : Kept ws sd (State.actHandover s) := by
  unfold State.actHandover
  try dsimp only
  repeat' first
    | with_reducible assumption
    | with_reducible apply State.modPower_kept
    | with_reducible apply State.endAll_kept
    | with_reducible apply State.closeLevels_kept
    | with_reducible apply State.notice_kept
    | with_reducible apply State.refresh_kept

theorem State.stopByTime_kept (h : Kept ws sd s) (v : Fin 8) : Kept ws sd (State.stopByTime s v) := by
  unfold State.stopByTime
  try dsimp only
  repeat' first
    | with_reducible assumption
    | with_reducible apply State.modBridge_kept
    | with_reducible apply State.pwrEvt_kept
    | with_reducible apply State.recordValveEnd_kept

theorem State.enterHoldover_kept (h : Kept ws sd s) (p : Port) : Kept ws sd (State.enterHoldover s p) := by
  unfold State.enterHoldover
  try dsimp only
  repeat' first
    | with_reducible assumption
    | with_reducible apply State.dropCk_kept
    | with_reducible apply State.modClk_kept
    | with_reducible apply State.clkEvt_kept
    | with_reducible apply State.record_kept
    | with_reducible apply Kept.ite

theorem State.strand_kept (h : Kept ws sd s) (hs : s.unit.st = .underway) : Kept ws sd (State.strand s) := by
  have h1 : Kept ws sd (s.modUnit fun u => { u with strUsed := 0, strUs := 0, strPos := s.motion.pos }) :=
    State.modUnit_kept h ⟨rfl, rfl⟩
  refine State.refresh_kept (State.enter_kept (State.switchSource_kept h1).weaken _ _ fun e ph ns => ?_)
  rw [(State.switchSource_unit _).2] at ph
  rw [(State.switchSource_unit _).1] at ns
  rcases h.safe e ph ns with hx | hx <;> exact nomatch hs.symm.trans hx

end Sys2Proof.Machine
end

