-- ==== Sys2Proof/Laws/KeptLines.lean ====
section
/-! SUPPORT. What is kept (Laws/Kept.lean) by lines, their effects, and the passing of time: one lemma for each operation. -/
namespace Sys2Proof.Machine

open Sys2Proof

variable {ws : List Instr} {sd : Bool} {s : State}

/-! ### Machine/Line.lean -/

theorem State.modManil_kept (h : Kept ws sd s) {f : Manil → Manil} (hf : s.manil.Bounded → (f s.manil).Bounded) : Kept ws sd (State.modManil s f) :=
  h.upd ⟨rfl, rfl⟩ id hf id id

theorem State.setQueue_kept (h : Kept ws sd s) (src : Source) (q : List QLine) : Kept ws sd (State.setQueue s src q) := by
  unfold State.setQueue
  try dsimp only
  repeat' first
    | with_reducible assumption
    | exact id
    | with_reducible apply State.modManil_kept
    | split

theorem State.payTurn_kept (h : Kept ws sd s) (turn : Option Sweep) : Kept ws sd (State.payTurn s turn) := by
  unfold State.payTurn
  try dsimp only
  repeat' first
    | with_reducible assumption
    | exact id
    | with_reducible apply State.modChain_kept
    | with_reducible apply State.sendTurn_kept
    | split

theorem State.sendReply_kept (h : Kept ws sd s) (src : Source) (b : ReplyBody) (reset : Bool) (turn : Option Sweep) :
    Kept ws sd (State.sendReply s src b reset turn) := by
  unfold State.sendReply
  try dsimp only
  repeat' first
    | with_reducible assumption
    | exact id
    | with_reducible apply State.modManil_kept
    | with_reducible apply State.reply_kept
    | with_reducible apply State.payTurn_kept
    | with_reducible apply Kept.ite

theorem State.sendHeld_kept (l : List HeldReply) : ∀ {s : State}, Kept ws sd s → Kept ws sd (State.sendHeld s l) := by
  induction l with
  | nil => exact fun h => State.modManil_kept h id
  | cons x l ih =>
    intro s h
    cases x with
    | muster t turn => exact State.modManil_kept h id
    | reply b reset turn => exact ih (State.payTurn_kept (State.reply_kept h ..) _)

theorem State.answer_kept (h : Kept ws sd s) (src : Source) (b : ReplyBody) (turn : Option Sweep) :
    Kept ws sd (State.answer s src b turn) := by
  unfold State.answer
  try dsimp only
  repeat' first
    | with_reducible assumption
    | exact id
    | with_reducible apply State.modManil_kept
    | with_reducible apply State.modRst_kept
    | with_reducible apply State.sendReply_kept
    | split

theorem State.refuseBare_kept (h : Kept ws sd s) (src : Source) (turn : Option Sweep) :
    Kept ws sd (State.refuseBare s src turn) := by
  unfold State.refuseBare
  try dsimp only
  repeat' first
    | with_reducible assumption
    | exact id
    | with_reducible apply State.modManil_kept
    | with_reducible apply State.answer_kept

theorem State.answerRefused_kept (src : Source) (l : List QLine) : ∀ {s : State}, Kept ws sd s → Kept ws sd (State.answerRefused s src l) := by
  induction l with
  | nil => exact fun h => h
  | cons x l ih =>
    intro s h
    unfold State.answerRefused
    split
    · exact ih (Kept.ite (State.refuseBare_kept (State.setQueue_kept h ..) ..) (State.answer_kept (State.setQueue_kept h ..) ..))
    · exact h

theorem State.dropLine_kept (h : Kept ws sd s) (i : Instr) (src : Source) : Kept ws sd (State.dropLine s i src) := by
  unfold State.dropLine
  try dsimp only
  repeat' first
    | with_reducible assumption
    | with_reducible apply State.setQueue_kept
    | split

theorem State.countAddr_kept (h : Kept ws sd s) : Kept ws sd (State.countAddr s) := by
  unfold State.countAddr
  try dsimp only
  repeat' first
    | with_reducible assumption
    | exact id
    | with_reducible apply State.modManil_kept

/-- A line that leaves its queue changes nothing else. -/
theorem State.setQueue_unit (s : State) (src : Source) (q : List QLine) : (State.setQueue s src q).unit = s.unit := by cases src <;> rfl

theorem State.setQueue_phase (s : State) (src : Source) (q : List QLine) : (State.setQueue s src q).phase = s.phase := by cases src <;> rfl

theorem State.setQueue_musters (s : State) (src : Source) (q : List QLine) :
    (State.setQueue s src q).manil.musters = s.manil.musters := by cases src <;> rfl

theorem State.dropLine_unit (s : State) (i : Instr) (src : Source) : (State.dropLine s i src).unit = s.unit := by
  unfold State.dropLine
  split
  · split
    · exact State.setQueue_unit ..
    · rfl
  · rfl

theorem State.dropLine_phase (s : State) (i : Instr) (src : Source) : (State.dropLine s i src).phase = s.phase := by
  unfold State.dropLine
  split
  · split
    · exact State.setQueue_phase ..
    · rfl
  · rfl

theorem State.dropLine_musters (s : State) (i : Instr) (src : Source) : (State.dropLine s i src).manil.musters = s.manil.musters := by
  unfold State.dropLine
  split
  · split
    · exact State.setQueue_musters ..
    · rfl
  · rfl

theorem State.runLine_kept (h : Kept ws sd s) (i : Instr) (ln : LineHdr) (refusal : Option Err)
    {run : QLine → State → State × Option ReplyBody}
    (hr : refusal = none → ∀ q t, Kept ws sd t → t.unit = s.unit → t.phase = s.phase → t.manil.musters = s.manil.musters →
      Kept ws sd (run q t).1) : Kept ws sd (State.runLine s i ln refusal run) := by
  have h1 := State.dropLine_kept h i ln.src
  unfold State.runLine
  dsimp only
  split
  · exact State.refuseBare_kept h1 ..
  split
  · exact State.answer_kept h1 ..
  · have h2 := hr rfl (s.queued i ln.src) (s.dropLine i ln.src) h1 (State.dropLine_unit s i ln.src) (State.dropLine_phase s i ln.src)
      (State.dropLine_musters s i ln.src)
    split
    · rename_i e
      rw [e] at h2
      exact State.answer_kept h2 ..
    · rename_i e
      rw [e] at h2
      exact h2

theorem State.line_kept (h : Kept ws sd s) (i : Instr) (ln : LineHdr) (refusal : Option Err)
    {run : QLine → State → State × Option ReplyBody}
    (hr : refusal = none → ∀ q t, Kept ws sd t → t.unit = s.unit → t.phase = s.phase → t.manil.musters = s.manil.musters →
      Kept ws sd (run q t).1) : Kept ws sd (State.line s i ln refusal run) := by
  have h1 := State.runLine_kept h i ln refusal hr
  unfold State.line
  refine Kept.ite h (State.answerRefused_kept _ _ (Kept.ite h1 ?_))
  split
  · exact h1
  · exact h
  · exact State.answer_kept h ..
  · exact State.countAddr_kept h

theorem State.tellLine_kept (h : Kept ws sd s) (i : Instr) (ln : LineHdr) (refusal : Option Err) {run : State → State}
    {text : State → List Tok}
    (hr : refusal = none → ∀ t, Kept ws sd t → t.unit = s.unit → t.phase = s.phase → Kept ws sd (run t)) :
    Kept ws sd (State.tellLine s i ln refusal run text) :=
  State.line_kept h i ln refusal fun e _ t ht hu hp _ => hr e t ht hu hp

theorem State.plainLine_kept (h : Kept ws sd s) (i : Instr) (ln : LineHdr) (refusal : Option Err) {run : State → State}
    (hr : refusal = none → ∀ t, Kept ws sd t → t.unit = s.unit → t.phase = s.phase → Kept ws sd (run t)) :
    Kept ws sd (State.plainLine s i ln refusal run) :=
  State.line_kept h i ln refusal fun e _ t ht hu hp _ => hr e t ht hu hp


/-! ### Machine/Auth.lean -/

theorem State.challenge_kept (h : Kept ws sd s) (src : Source) : Kept ws sd (State.challenge s src) := by
  unfold State.challenge
  try dsimp only
  repeat' first
    | with_reducible assumption
    | with_reducible apply State.modAuth_kept
    | fail_if_no_progress with_reducible apply Kept.other

theorem State.grant_kept (h : Kept ws sd s) (src : Source) : Kept ws sd (State.grant s src) := by
  unfold State.grant
  try dsimp only
  repeat' first
    | with_reducible assumption
    | with_reducible apply State.modAuth_kept

theorem State.authFailed_kept (h : Kept ws sd s) (src : Source) : Kept ws sd (State.authFailed s src) := by
  unfold State.authFailed
  try dsimp only
  repeat' first
    | with_reducible assumption
    | exact id
    | with_reducible apply State.modAuth_kept
    | with_reducible apply State.modRec_kept
    | with_reducible apply State.record_kept
    | with_reducible apply State.notice_kept


/-! ### Machine/Image.lean -/

theorem State.modBoot_kept (h : Kept ws sd s) (f : Boot → Boot) : Kept ws sd (State.modBoot s f) := by
  unfold State.modBoot
  try dsimp only
  repeat' first
    | with_reducible assumption
    | fail_if_no_progress with_reducible apply Kept.other

theorem State.resetAfterReply_kept (h : Kept ws sd s) (n : Nat) (delay : Nat) : Kept ws sd (State.resetAfterReply s n delay) := by
  unfold State.resetAfterReply
  try dsimp only
  repeat' first
    | with_reducible assumption
    | with_reducible apply State.modRst_kept


/-! ### Machine/Command.lean -/

theorem State.goes_kept (h : Kept ws sd s) (hs : s.unit.st = .ready ∨ s.unit.st = .stranded) : Kept ws sd (State.goes s) := by
  have hsafe (e : sd = true) (ph : s.phase = .running) (ns : s.unit.safe ≠ 0) : False := by
    rcases h.safe e ph ns with hx | hx <;> rcases hs with hy | hy <;> exact nomatch hx.symm.trans hy
  have h1 (t : State) (ht : Kept ws sd t) (hp : t.phase = s.phase) (hu : t.unit.safe = s.unit.safe) :
      Kept ws sd (t.enter .underway .go).refresh :=
    State.refresh_kept (State.enter_kept ht.weaken _ _ fun e ph ns => (hsafe e (hp ▸ ph) (hu ▸ ns)).elim)
  unfold State.goes
  dsimp only
  split
  · exact h1 _ (State.modUnit_kept h ⟨rfl, rfl⟩) rfl rfl
  · exact h1 _ h.other rfl rfl

theorem State.resumes_kept (h : Kept ws sd s) (hs : s.unit.st = .moored ∨ s.unit.st = .safe) : Kept ws sd (State.resumes s) := by
  have h1 : Kept ws false { s with
      safety := { s.safety with pairs := s.safety.pairs.map Pair.clearLatch }
      unit := { s.unit with kill := false, safe := drop s.unit.safe 2 } } := h.weaken.free
  unfold State.resumes
  dsimp only
  split
  · rename_i hx
    exact State.refresh_kept (State.enter_kept h1 _ _ fun _ _ ns => absurd hx.2 ns)
  · rename_i hx
    refine State.refresh_kept ⟨h1.pending, h1.stores, fun e ph ns => ?_⟩
    rcases hs with hy | hy
    · have hz : s.unit.safe = 0 := Classical.byContradiction fun hn => by
        rcases h.safe e ph hn with hv | hv <;> exact nomatch hy.symm.trans hv
      exact absurd (by simp [hz, drop] : drop s.unit.safe 2 = 0) ns
    · exact .inl hy

theorem State.shutChan_kept (h : Kept ws sd s) (c : Fin 40) : Kept ws sd (State.shutChan s c) := by
  unfold State.shutChan
  try dsimp only
  repeat' first
    | with_reducible assumption
    | exact ⟨rfl, rfl⟩
    | with_reducible apply State.modUnit_kept
    | with_reducible apply State.endCrossing_kept
    | with_reducible apply Kept.ite

theorem State.endManual_kept (h : Kept ws sd s) (c : Fin 40) : Kept ws sd (State.endManual s c) := by
  unfold State.endManual
  try dsimp only
  repeat' first
    | with_reducible assumption
    | with_reducible apply State.modSol_kept
    | with_reducible apply State.modValve_kept
    | split

theorem State.freeChan_kept (h : Kept ws sd s) (c : Fin 40) : Kept ws sd (State.freeChan s c) := by
  unfold State.freeChan
  try dsimp only
  repeat' first
    | with_reducible assumption
    | exact ⟨rfl, rfl⟩
    | with_reducible apply State.modUnit_kept
    | with_reducible apply State.modX_kept
    | with_reducible apply State.endManual_kept
    | with_reducible apply Kept.ite


/-! ### Machine/Settings.lean -/

theorem State.writeDis_kept (h : Kept ws sd s) (v : Word) : Kept ws sd (State.writeDis s v) := by
  unfold State.writeDis
  try dsimp only
  repeat' first
    | with_reducible assumption
    | with_reducible apply State.modPwm_kept
    | with_reducible apply State.refresh_kept

theorem State.writeDuty_kept (h : Kept ws sd s) (k : Fin 12) (v : Word) : Kept ws sd (State.writeDuty s k v) := by
  unfold State.writeDuty
  try dsimp only
  repeat' first
    | with_reducible assumption
    | with_reducible apply State.modSlice_kept

theorem State.writePtgt_kept (h : Kept ws sd s) (v : Fin 8) (w : Word) : Kept ws sd (State.writePtgt s v w) := by
  unfold State.writePtgt
  try dsimp only
  repeat' first
    | with_reducible assumption
    | with_reducible apply State.modValve_kept
    | with_reducible apply State.positionAct_kept

theorem State.writeVsel_kept (h : Kept ws sd s) (src : Source) (v : Word) : Kept ws sd (State.writeVsel s src v) := by
  unfold State.writeVsel
  try dsimp only
  repeat' first
    | with_reducible assumption
    | split
    | fail_if_no_progress with_reducible apply Kept.other

theorem State.writeKey_kept (h : Kept ws sd s) (src : Source) (k : Fin 6) (v : Word) : Kept ws sd (State.writeKey s src k v) := by
  unfold State.writeKey
  try dsimp only
  repeat' first
    | with_reducible assumption
    | with_reducible apply State.record_kept
    | split
    | fail_if_no_progress with_reducible apply Kept.other

theorem State.writeNow_kept (h : Kept ws sd s) (src : Source) (a : Nat) (v : Word) : Kept ws sd (State.writeNow s src a v) := by
  unfold State.writeNow
  try dsimp only
  repeat' first
    | with_reducible assumption
    | with_reducible apply State.clearCounters_kept
    | with_reducible apply State.writeVsel_kept
    | with_reducible apply State.clearFlags_kept
    | with_reducible apply State.writeDuty_kept
    | with_reducible apply State.writeDis_kept
    | with_reducible apply State.writePtgt_kept
    | with_reducible apply State.writeKey_kept
    | split

theorem State.writePair_kept (h : Kept ws sd s) (src : Source) (tides a : Nat) (v : Word) :
    Kept ws sd (State.writePair s src tides a v) := by
  unfold State.writePair
  split
  · exact Kept.ite (State.modManil_kept h (Manil.stage_bounded _ _ _)) (State.writeNow_kept h ..)
  · exact h

theorem State.runSet_kept (h : Kept ws sd s) (i : Instr) (ln : LineHdr) (pairs : List (PathArg × LineNum)) :
    Kept ws sd (State.runSet s i ln pairs) :=
  State.line_kept h i ln _ fun _ _ _ ht _ _ _ => Kept.foldl (fun _ _ hu => State.writePair_kept hu ..) _ ht


/-! ### Machine/Query.lean -/

theorem State.latchMuster_kept (h : Kept ws sd s) (m : MusterSlot) : Kept ws sd (State.latchMuster s m) := by
  unfold State.latchMuster
  dsimp only
  split
  · exact h
  · rename_i hm
    have hin : m ∈ s.manil.musters := by simpa using hm
    refine State.sendHeld_kept _ (State.modManil_kept h fun hb => ⟨hb.1, ?_⟩)
    have hl := List.length_erase_of_mem hin
    have hp := List.length_pos_of_mem hin
    simp only [List.length_append, List.length_cons, List.length_nil, hl]
    have := hb.2
    omega

theorem State.clearLog_kept (h : Kept ws sd s) (src : Source) : Kept ws sd (State.clearLog s src) := by
  have h1 : Kept ws sd (s.modRec fun r => { r with nvm := [], queue := [], last := none, repeatDue := false }) :=
    State.modRec_kept h fun _ => ⟨by simp, by simp⟩
  exact State.notice_kept (State.modRec_kept (State.record_kept h1 ..) fun _ =>
    ⟨by simp [Recorder.commitAll], by simpa [Recorder.commitAll] using Recorder.held_length _⟩) _


/-! ### Machine/Intake.lean -/

theorem State.enqueue_kept (h : Kept ws sd s) (src : Source) (what : Instr ⊕ Err) (bare : Bool) (turn : Option Sweep) :
    Kept ws sd (State.enqueue s src what bare turn) := by
  have h1 (q : List QLine) := State.setQueue_kept h src q
  unfold State.enqueue
  exact Kept.ite (State.answerRefused_kept _ _ (h1 _)) (h1 _)

theorem State.enqueueSome_kept (h : Kept ws sd s) (src : Source) (what : Option (Instr ⊕ Err)) (bare : Bool) (turn : Option Sweep) :
    Kept ws sd (State.enqueueSome s src what bare turn) := by
  unfold State.enqueueSome
  try dsimp only
  repeat' first
    | with_reducible assumption
    | with_reducible apply State.enqueue_kept
    | split

theorem State.complete_kept (h : Kept ws sd s) (src : Source) (text : Chars) (long : Bool) (chars : Bool) (turn : Option Sweep) :
    Kept ws sd (State.complete s src text long chars turn) := by
  unfold State.complete
  try dsimp only
  repeat' first
    | with_reducible assumption
    | exact id
    | with_reducible apply State.modManil_kept
    | with_reducible apply State.countAddr_kept
    | with_reducible apply State.enqueueSome_kept
    | split

/-- A sweep is noted among those outstanding, or its TURN among those owed. -/
theorem State.noteSweep_kept (h : Kept ws sd s) (crc : Byte) : Kept ws sd (State.noteSweep s crc).1 := by
  have hc (f : Chain → Chain) (hf : ∀ c, (f c).Bounded ↔ c.Bounded) : Kept ws sd (s.modChain f) := State.modChain_kept h (hf _).2
  unfold State.noteSweep
  dsimp only
  by_cases he : s.isEnd
  · simp only [he, if_true]
    exact hc _ fun _ => Iff.rfl
  · simp only [he, Bool.false_eq_true, if_false]
    exact hc (fun c => c.newSweep crc false false) fun _ => Iff.rfl

theorem State.takeFrame_kept (h : Kept ws sd s) (text : List Byte) : Kept ws sd (State.takeFrame s text) := by
  have hn : Kept ws sd (if isSweep (charsOf text) then s.noteSweep (crc8 text) else (s, none)).1 := by
    split
    · exact State.noteSweep_kept h _
    · exact h
  unfold State.takeFrame
  refine Kept.ite (State.frameError_kept h _) (Kept.ite h ?_)
  exact Kept.ite (State.complete_kept hn ..) hn

theorem State.judgeFrame_kept (h : Kept ws sd s) (port : Port) (fr : FrameArrival) : Kept ws sd (State.judgeFrame s port fr) := by
  unfold State.judgeFrame
  try dsimp only
  repeat' first
    | with_reducible assumption
    | with_reducible apply State.takeFrame_kept
    | with_reducible apply State.frameError_kept
    | split

theorem State.echo_kept (h : Kept ws sd s) (bytes : List Byte) : Kept ws sd (State.echo s bytes) := by
  unfold State.echo
  try dsimp only
  repeat' first
    | with_reducible assumption
    | exact id
    | with_reducible apply State.modManil_kept
    | with_reducible apply Kept.ite

theorem State.consoleEnd_kept (h : Kept ws sd s) : Kept ws sd (State.consoleEnd s) := by
  unfold State.consoleEnd
  try dsimp only
  repeat' first
    | with_reducible assumption
    | exact id
    | with_reducible apply State.modManil_kept
    | with_reducible apply State.complete_kept

theorem State.consoleTake_kept (h : Kept ws sd s) (c : Byte) : Kept ws sd (State.consoleTake s c) := by
  unfold State.consoleTake
  try dsimp only
  repeat' first
    | with_reducible assumption
    | exact id
    | with_reducible apply State.modManil_kept
    | with_reducible apply State.echo_kept
    | with_reducible apply State.consoleEnd_kept
    | with_reducible apply Kept.ite


/-! ### Machine/Manifest.lean -/

theorem State.recallCast_kept (h : Kept ws sd s) (c : Fin 40) : Kept ws sd (State.recallCast s c) := by
  unfold State.recallCast
  try dsimp only
  repeat' first
    | with_reducible assumption
    | with_reducible apply State.endCast_kept
    | with_reducible apply State.castOutput_kept
    | with_reducible apply State.offDemand_kept
    | with_reducible apply State.modSol_kept
    | with_reducible apply State.refresh_kept
    | with_reducible apply State.modX_kept
    | with_reducible apply State.modValve_kept
    | with_reducible apply State.startRun_kept
    | split

theorem State.recallLanded_kept (h : Kept ws sd s) (c : Fin 40) (k : Current) : Kept ws sd (State.recallLanded s c k) := by
  unfold State.recallLanded
  try dsimp only
  repeat' first
    | with_reducible assumption
    | with_reducible apply State.xngEvt_kept
    | with_reducible apply State.castNow_kept
    | with_reducible apply State.notice_kept

theorem State.takeBack_kept (h : Kept ws sd s) (c : Fin 40) (f : Found) : Kept ws sd (State.takeBack s c f) := by
  cases f with
  | pending y => exact State.modX_kept h ..
  | decided k => exact State.refresh_kept (State.endDecided_kept h ..)
  | cast _ => exact State.recallCast_kept h _
  | landed k => exact State.recallLanded_kept h ..
  | gone => exact h

theorem State.recallAllOf_kept (h : Kept ws sd s) (c : Fin 40) : Kept ws sd (State.recallAllOf s c) := by
  unfold State.recallAllOf
  try dsimp only
  repeat' first
    | with_reducible assumption
    | intro _
    | with_reducible apply State.modX_kept
    | with_reducible apply State.endDecided_kept
    | with_reducible apply State.recallCast_kept
    | with_reducible apply State.refresh_kept
    | with_reducible apply Kept.foldl
    | split


/-! ### Machine/Manual.lean -/

theorem State.manualSol_kept (h : Kept ws sd s) (c : Fin 32) (m : SolManual) : Kept ws sd (State.manualSol s c m) := by
  unfold State.manualSol
  try dsimp only
  repeat' first
    | with_reducible assumption
    | with_reducible apply State.modSol_kept
    | with_reducible apply State.renewDemand_kept
    | with_reducible apply Kept.ite

theorem State.manualValve_kept (h : Kept ws sd s) (v : Fin 8) (m : ValveManual) : Kept ws sd (State.manualValve s v m) := by
  unfold State.manualValve
  try dsimp only
  repeat' first
    | with_reducible assumption
    | with_reducible apply State.modValve_kept
    | with_reducible apply State.startRun_kept
    | with_reducible apply State.takeDemand_kept
    | split

theorem State.manualAll_kept (h : Kept ws sd s) (cs : List (Fin 40)) (sol : SolManual) (valve : Fin 8 → ValveManual) :
    Kept ws sd (State.manualAll s cs sol valve) := by
  unfold State.manualAll
  try dsimp only
  repeat' first
    | with_reducible assumption
    | intro _
    | with_reducible apply State.manualSol_kept
    | with_reducible apply State.manualValve_kept
    | with_reducible apply State.refresh_kept
    | with_reducible apply Kept.foldl
    | split

theorem State.clearBank_kept (h : Kept ws sd s) (b : Fin 8) : Kept ws sd (State.clearBank s b) := by
  unfold State.clearBank
  try dsimp only
  repeat' first
    | with_reducible assumption
    | intro _
    | with_reducible apply State.modSol_kept
    | with_reducible apply State.modBank_kept
    | with_reducible apply Kept.foldl

theorem State.clearChan_kept (h : Kept ws sd s) (c : Fin 40) : Kept ws sd (State.clearChan s c) := by
  unfold State.clearChan
  try dsimp only
  repeat' first
    | with_reducible assumption
    | with_reducible apply State.modSol_kept
    | with_reducible apply State.modValve_kept
    | split


/-! ### Machine/Schedule.lean -/

theorem State.nextMicro_kept (h : Kept ws sd s) (frac : Nat) : Kept ws sd (State.nextMicro s frac) :=
  h.upd (by split <;> exact ⟨rfl, rfl⟩) id id id id

theorem State.advanceTime_kept (h : Kept ws sd s) : Kept ws sd (State.advanceTime s) := by
  have h1 (x : Int) : Kept ws sd { s with clocks := { s.clocks with slew := x } } := h.other
  unfold State.advanceTime
  exact Kept.ite h (Kept.ite (State.modClk_kept (h1 _) _) (State.nextMicro_kept (h1 _) _))

theorem State.tickTrack_kept (h : Kept ws sd s) : Kept ws sd (State.tickTrack s) := by
  unfold State.tickTrack
  try dsimp only
  repeat' first
    | with_reducible assumption
    | with_reducible apply State.modClk_kept

theorem State.learnOffset_kept (h : Kept ws sd s) : Kept ws sd (State.learnOffset s) := by
  unfold State.learnOffset
  try dsimp only
  repeat' first
    | with_reducible assumption
    | with_reducible apply State.modClk_kept
    | with_reducible apply Kept.ite

/-- The UP buffer drains past the queue, and takes no notice. -/
theorem Chain.drain_bounded (time : Nat) (l : List ChainChar) : ∀ {c : Chain}, c.Bounded → (c.drain time l).Bounded := by
  induction l with
  | nil =>
    intro c h
    unfold Chain.drain
    split <;> exact h
  | cons x l ih =>
    intro c h
    have h1 : (c.drainOne x l time).Bounded := h
    unfold Chain.drain
    split
    · exact ih h1
    · exact h

/-- What leaves the wires is no notice. -/
theorem Chain.wires_bounded {c : Chain} (h : c.Bounded) (n : Nat) :
    ({ c with upWire := [], dnWire := [], upBusy := n } : Chain).Bounded := h

theorem Chain.clearWires_bounded {c : Chain} (h : c.Bounded) : c.clearWires.Bounded := Chain.wires_bounded h _

theorem State.clearWires_kept (h : Kept ws sd s) : Kept ws sd (State.clearWires s) := by
  have h1 := State.modChain_kept (State.modManil_kept (State.modChain_kept h Chain.clearWires_bounded)
    (f := fun m => { m with conTx := [] }) id) (f := fun c => c.drain s.clocks.charTime c.upBuf) fun hc => Chain.drain_bounded _ _ hc
  exact Kept.ite h1 (State.modChain_kept h1 id)

theorem State.tickCd08_kept (h : Kept ws sd s) : Kept ws sd (State.tickCd08 s) := by
  unfold State.tickCd08
  try dsimp only
  repeat' first
    | with_reducible assumption
    | exact id
    | with_reducible apply State.modCal_kept
    | with_reducible apply State.modRec_kept
    | with_reducible apply Kept.ite
    | fail_if_no_progress with_reducible apply Kept.other

theorem State.flushRefused_kept (h : Kept ws sd s) : Kept ws sd (State.flushRefused s) :=
  Kept.ite h (State.answerRefused_kept _ _ (State.answerRefused_kept _ _ h))

theorem State.microsecond_kept (h : Kept ws sd s) : Kept ws sd (State.microsecond s) := by
  have h1 : Kept ws sd { s.tickCkout with clk := s.clk + 1, settle := 0 } := Kept.other (Kept.other h)
  exact State.flushRefused_kept (State.tickCd08_kept (State.markBanks_kept (State.sampleCoils_kept (State.compareCoils_kept
    (State.tickBoost_kept (State.tickSpread_kept (State.tickTrack_kept (State.learnOffset_kept (State.advanceTime_kept (State.clearWires_kept h1))))))))))

theorem State.pass_kept (h : Kept ws sd s) : Kept ws sd (State.pass s) :=
  Kept.ite (State.nextMicro_kept (s := { s with settle := 0 }) h.other _) (State.microsecond_kept h)

theorem State.tick_kept (h : Kept ws sd s) : ∃ q, Kept q sd (State.tick s) := by
  unfold State.tick
  split
  · exact ⟨_, State.pass_kept h⟩
  split
  · exact ⟨_, (⟨rfl, h.stores.other, h.safe⟩ : Kept _ sd { s with settle := s.settle + 1, pending := _ })⟩
  · exact ⟨_, State.pass_kept h⟩

end Sys2Proof.Machine
end

