-- ==== Sys2Proof/Laws/Steady.lean ====
section
/-! SUPPORT. What outputs that follow their demands leave alone. `Steady z s` says that `s` differs from `z` at most in the outputs
(coils, slices, valves and the crossings they carry out) and in what is told of them: records, notices, the console and PWR.EVT. Each
operation has one lemma. -/
namespace Sys2Proof.Machine

open Sys2Proof

variable {z s : State}

/-- A state is steady with itself. -/
theorem Steady.refl (s : State) : Steady s s := ⟨rfl⟩

/-- An update of outputs and what is told of them. -/
theorem Steady.upd (h : Steady z s) {chain engine sol pwm recorder power manil}
    (hp : { power with evt := 0 } = { s.power with evt := 0 }) (hm : { manil with conTx := [] } = { s.manil with conTx := [] }) :
    Steady z ⟨s.phase, s.regs, s.time, s.clk, s.cd08, chain, s.clocks, s.spread, s.ckout, power, s.rst, s.boot, s.unit, manil, s.motion, engine,
      sol, pwm, s.pilot, s.safety, recorder, s.owner, s.cal, s.nvm, s.settle, s.pending⟩ := by
  have := h.eq
  constructor
  rw [← this]
  simp [State.firm] at *
  exact ⟨hp, hm⟩

/-- A conditional is steady where both its branches are. -/
theorem Steady.ite {x y : State} {c : Prop} [Decidable c] (hx : Steady z x) (hy : Steady z y) : Steady z (if c then x else y) := by
  split <;> assumption

/-- So is a conditional whose branches use its condition. -/
theorem Steady.dite {c : Prop} [Decidable c] {x : c → State} {y : ¬c → State} (hx : ∀ h, Steady z (x h)) (hy : ∀ h, Steady z (y h)) :
    Steady z (if h : c then x h else y h) := by
  split
  · exact hx _
  · exact hy _

/-- So is a fold. -/
theorem Steady.foldl {α : Type} {f : State → α → State} (hf : ∀ t a, Steady z t → Steady z (f t a)) (l : List α) :
    ∀ {s : State}, Steady z s → Steady z (l.foldl f s) := by
  induction l with
  | nil => exact fun h => h
  | cons a l ih => exact fun h => ih (hf _ a h)

/-! ### Machine/Ops.lean -/

theorem State.record_firm (h : Steady z s) (code : Nat) (source : Nat) (data : Word) (cont : Option Word) :
    Steady z (State.record s code source data cont) := by
  unfold State.record
  try dsimp only
  repeat' first
    | with_reducible assumption
    | with_reducible refine Steady.upd ?_ ?_ ?_
    | with_reducible rfl

theorem State.conSend_firm (h : Steady z s) (line : String) : Steady z (State.conSend s line) := by
  unfold State.conSend
  try dsimp only
  repeat' first
    | with_reducible assumption
    | with_reducible apply Steady.ite
    | with_reducible refine Steady.upd ?_ ?_ ?_
    | with_reducible rfl

theorem State.conLineOut_firm (h : Steady z s) (line : String) : Steady z (State.conLineOut s line) := by
  unfold State.conLineOut
  try dsimp only
  repeat' first
    | with_reducible assumption
    | with_reducible apply State.conSend_firm

theorem State.queueUp_firm (h : Steady z s) (u : UpItem) : Steady z (State.queueUp s u) := by
  unfold State.queueUp
  try dsimp only
  repeat' first
    | with_reducible assumption
    | with_reducible refine Steady.upd ?_ ?_ ?_
    | with_reducible rfl

theorem State.notice_firm (h : Steady z s) (text : List Tok) : Steady z (State.notice s text) := by
  unfold State.notice
  try dsimp only
  repeat' first
    | with_reducible assumption
    | with_reducible apply State.queueUp_firm
    | with_reducible apply State.conLineOut_firm
    | with_reducible apply Steady.ite
    | with_reducible refine Steady.upd ?_ ?_ ?_
    | with_reducible rfl

theorem State.sendUp_firm (h : Steady z s) (w : WireItem) : Steady z (State.sendUp s w) := by
  unfold State.sendUp
  try dsimp only
  repeat' first
    | with_reducible assumption
    | with_reducible apply Steady.ite
    | with_reducible refine Steady.upd ?_ ?_ ?_
    | with_reducible rfl

theorem State.sendDn_firm (h : Steady z s) (w : WireItem) : Steady z (State.sendDn s w) := by
  unfold State.sendDn
  try dsimp only
  repeat' first
    | with_reducible assumption
    | with_reducible apply Steady.ite
    | with_reducible refine Steady.upd ?_ ?_ ?_
    | with_reducible rfl

theorem State.relayUp_firm (h : Steady z s) (w : WireItem) : Steady z (State.relayUp s w) := by
  unfold State.relayUp
  try dsimp only
  repeat' first
    | with_reducible assumption
    | with_reducible apply State.sendUp_firm
    | with_reducible apply Steady.ite
    | with_reducible refine Steady.upd ?_ ?_ ?_
    | with_reducible rfl

theorem State.seizeUp_firm (h : Steady z s) (c : ChainChar) : Steady z (State.seizeUp s c) := by
  unfold State.seizeUp
  try dsimp only
  repeat' first
    | with_reducible assumption
    | with_reducible apply State.sendUp_firm
    | with_reducible refine Steady.upd ?_ ?_ ?_
    | with_reducible rfl

theorem State.forward_firm (h : Steady z s) (p : Port) (w : WireItem) : Steady z (State.forward s p w) := by
  unfold State.forward
  try dsimp only
  repeat' first
    | with_reducible assumption
    | with_reducible apply State.sendDn_firm
    | with_reducible apply State.relayUp_firm
    | with_reducible apply Steady.ite

theorem State.forwardKill_firm (h : Steady z s) (p : Port) : Steady z (State.forwardKill s p) := by
  unfold State.forwardKill
  try dsimp only
  repeat' first
    | with_reducible assumption
    | with_reducible apply State.sendDn_firm
    | with_reducible apply State.seizeUp_firm
    | with_reducible apply Steady.ite

theorem State.forwardIdle_firm (p : Port) (n : Nat) : ∀ {s : State}, Steady z s → Steady z (State.forwardIdle s p n) := by
  induction n with
  | zero => exact fun h => h
  | succ n ih => exact fun h => ih (Steady.ite h (Steady.ite (State.sendDn_firm h _) (Steady.ite (State.sendUp_firm h _) h)))

theorem State.gangwayPass_firm (h : Steady z s) (p : Port) (w : WireItem) : Steady z (State.gangwayPass s p w) := by
  unfold State.gangwayPass
  try dsimp only
  repeat' first
    | with_reducible assumption
    | with_reducible apply Steady.ite
    | with_reducible refine Steady.upd ?_ ?_ ?_
    | with_reducible rfl

theorem State.modPort_firm (h : Steady z s) (p : Port) (f : PortState → PortState) : Steady z (State.modPort s p f) := by
  unfold State.modPort
  try dsimp only
  repeat' first
    | with_reducible assumption
    | with_reducible refine Steady.upd ?_ ?_ ?_
    | with_reducible rfl

theorem State.deaf_firm (h : Steady z s) (p : Port) (n : Nat) : Steady z (State.deaf s p n) := by
  unfold State.deaf
  try dsimp only
  repeat' first
    | with_reducible assumption
    | with_reducible apply State.modPort_firm
    | with_reducible apply State.forwardIdle_firm

theorem State.frameError_firm (h : Steady z s) (p : Port) : Steady z (State.frameError s p) := by
  unfold State.frameError
  try dsimp only
  repeat' first
    | with_reducible assumption
    | with_reducible apply State.modPort_firm

theorem State.crcError_firm (h : Steady z s) (p : Port) : Steady z (State.crcError s p) := by
  unfold State.crcError
  try dsimp only
  repeat' first
    | with_reducible assumption
    | with_reducible apply State.modPort_firm

theorem State.seqError_firm (h : Steady z s) (p : Port) (q : SeqArrival) (n : Nat) : Steady z (State.seqError s p q n) := by
  unfold State.seqError
  try dsimp only
  repeat' first
    | with_reducible assumption
    | with_reducible apply State.crcError_firm
    | with_reducible apply State.frameError_firm
    | with_reducible apply Steady.ite

theorem State.chnEvt_firm (h : Steady z s) (k : Nat) : Steady z (State.chnEvt s k) := by
  unfold State.chnEvt
  try dsimp only
  repeat' first
    | with_reducible assumption
    | with_reducible refine Steady.upd ?_ ?_ ?_
    | with_reducible rfl

theorem State.pwrEvt_firm (h : Steady z s) (k : Nat) : Steady z (State.pwrEvt s k) := by
  unfold State.pwrEvt
  try dsimp only
  repeat' first
    | with_reducible assumption
    | with_reducible refine Steady.upd ?_ ?_ ?_
    | with_reducible rfl

theorem State.xngEvt_firm (h : Steady z s) (k : Nat) : Steady z (State.xngEvt s k) := by
  unfold State.xngEvt
  try dsimp only
  repeat' first
    | with_reducible assumption
    | with_reducible refine Steady.upd ?_ ?_ ?_
    | with_reducible rfl

theorem State.markStale_firm (h : Steady z s) : Steady z (State.markStale s) := by
  unfold State.markStale
  try dsimp only
  repeat' first
    | with_reducible assumption
    | with_reducible refine Steady.upd ?_ ?_ ?_
    | with_reducible rfl


/-! ### Machine/Operands.lean -/

theorem State.modSol_firm (h : Steady z s) (c : Fin 32) (f : SolChan → SolChan) : Steady z (State.modSol s c f) := by
  unfold State.modSol
  try dsimp only
  repeat' first
    | with_reducible assumption
    | with_reducible refine Steady.upd ?_ ?_ ?_
    | with_reducible rfl

theorem State.modBank_firm (h : Steady z s) (b : Fin 8) (f : Bank → Bank) : Steady z (State.modBank s b f) := by
  unfold State.modBank
  try dsimp only
  repeat' first
    | with_reducible assumption
    | with_reducible refine Steady.upd ?_ ?_ ?_
    | with_reducible rfl

theorem State.modBoost_firm (h : Steady z s) (f : Boost → Boost) : Steady z (State.modBoost s f) := by
  unfold State.modBoost
  try dsimp only
  repeat' first
    | with_reducible assumption
    | with_reducible refine Steady.upd ?_ ?_ ?_
    | with_reducible rfl

theorem State.modSlice_firm (h : Steady z s) (i : Fin 12) (f : Slice → Slice) : Steady z (State.modSlice s i f) := by
  unfold State.modSlice
  try dsimp only
  repeat' first
    | with_reducible assumption
    | with_reducible refine Steady.upd ?_ ?_ ?_
    | with_reducible rfl

theorem State.modValve_firm (h : Steady z s) (v : Fin 8) (f : Valve → Valve) : Steady z (State.modValve s v f) := by
  unfold State.modValve
  try dsimp only
  repeat' first
    | with_reducible assumption
    | with_reducible refine Steady.upd ?_ ?_ ?_
    | with_reducible rfl

theorem State.modX_firm (h : Steady z s) (c : Fin 40) (f : XChan → XChan) : Steady z (State.modX s c f) := by
  unfold State.modX
  try dsimp only
  repeat' first
    | with_reducible assumption
    | with_reducible refine Steady.upd ?_ ?_ ?_
    | with_reducible rfl


/-! ### Machine/Bridge.lean -/

theorem State.modBridge_firm (h : Steady z s) (v : Fin 8) (f : Valve → Valve) : Steady z (State.modBridge s v f) := by
  unfold State.modBridge
  try dsimp only
  repeat' first
    | with_reducible assumption
    | with_reducible apply State.modValve_firm
    | with_reducible apply Steady.ite

theorem State.endPeriodGates_firm (h : Steady z s) (v : Fin 8) (tick : Nat) : Steady z (State.endPeriodGates s v tick) := by
  unfold State.endPeriodGates
  try dsimp only
  repeat' first
    | with_reducible assumption
    | with_reducible apply State.modValve_firm
    | with_reducible apply Steady.ite


/-! ### Machine/Drive.lean -/

theorem State.solDiag_firm (h : Steady z s) (c : Fin 32) (k : Nat) : Steady z (State.solDiag s c k) := by
  unfold State.solDiag
  try dsimp only
  repeat' first
    | with_reducible assumption
    | with_reducible apply State.modSol_firm
    | with_reducible apply State.record_firm
    | with_reducible apply State.notice_firm

theorem State.dequeue_firm (h : Steady z s) (c : Fin 32) : Steady z (State.dequeue s c) := by
  unfold State.dequeue
  try dsimp only
  repeat' first
    | with_reducible assumption
    | with_reducible apply State.modBank_firm

theorem State.releaseArbiter_firm (h : Steady z s) (c : Fin 32) : Steady z (State.releaseArbiter s c) := by
  unfold State.releaseArbiter
  try dsimp only
  repeat' first
    | with_reducible assumption
    | with_reducible apply State.modBank_firm

theorem State.requestBoost_firm (h : Steady z s) (c : Fin 32) (teach : Bool) : Steady z (State.requestBoost s c teach) := by
  unfold State.requestBoost
  try dsimp only
  repeat' first
    | with_reducible assumption
    | with_reducible apply State.modSol_firm
    | with_reducible apply State.modBank_firm

theorem State.onDemand_firm (h : Steady z s) (c : Fin 32) : Steady z (State.onDemand s c) := by
  unfold State.onDemand
  try dsimp only
  repeat' first
    | with_reducible assumption
    | with_reducible apply State.requestBoost_firm
    | with_reducible apply State.modSol_firm
    | with_reducible apply State.solDiag_firm
    | split

theorem State.startOff_firm (h : Steady z s) (c : Fin 32) (d : Decay) : Steady z (State.startOff s c d) := by
  unfold State.startOff
  try dsimp only
  repeat' first
    | with_reducible assumption
    | with_reducible apply State.modSol_firm

theorem State.offDemand_firm (h : Steady z s) (c : Fin 32) (fast : Bool) : Steady z (State.offDemand s c fast) := by
  unfold State.offDemand
  try dsimp only
  repeat' first
    | with_reducible assumption
    | with_reducible apply State.dequeue_firm
    | with_reducible apply State.modSol_firm
    | with_reducible apply State.releaseArbiter_firm
    | with_reducible apply State.startOff_firm
    | split

theorem State.startInterval_firm (h : Steady z s) (c : Fin 32) (f : Nat) (p : Nat) (d : Frac) :
    Steady z (State.startInterval s c f p d) := by
  unfold State.startInterval
  try dsimp only
  repeat' first
    | with_reducible assumption
    | with_reducible apply State.modSol_firm
    | with_reducible apply State.solDiag_firm
    | with_reducible apply Steady.ite

theorem State.applySol_firm (h : Steady z s) (c : Fin 32) : Steady z (State.applySol s c) := by
  unfold State.applySol
  try dsimp only
  repeat' first
    | with_reducible assumption
    | with_reducible apply State.modSol_firm
    | with_reducible apply State.offDemand_firm
    | with_reducible apply State.onDemand_firm
    | with_reducible apply State.startInterval_firm
    | split

theorem State.tellEnd_firm (h : Steady z s) (c : Fin 40) (k : Current) (e : Nat) (cause : EndCause) :
    Steady z (State.tellEnd s c k e cause) := by
  unfold State.tellEnd
  try dsimp only
  repeat' first
    | with_reducible assumption
    | with_reducible apply State.record_firm
    | with_reducible apply State.notice_firm
    | with_reducible apply Steady.ite
    | with_reducible refine Steady.upd ?_ ?_ ?_
    | with_reducible rfl

theorem State.endDecided_firm (h : Steady z s) (c : Fin 40) (k : Current) (cause : EndCause) :
    Steady z (State.endDecided s c k cause) := by
  unfold State.endDecided
  try dsimp only
  repeat' first
    | with_reducible assumption
    | with_reducible apply State.modX_firm
    | with_reducible apply State.tellEnd_firm

theorem State.endCast_firm (h : Steady z s) (c : Fin 40) (cause : EndCause) : Steady z (State.endCast s c cause) := by
  unfold State.endCast
  try dsimp only
  repeat' first
    | with_reducible assumption
    | with_reducible apply State.modX_firm
    | with_reducible apply State.tellEnd_firm
    | split

theorem State.endCrossing_firm (h : Steady z s) (c : Fin 40) (cause : EndCause) : Steady z (State.endCrossing s c cause) := by
  unfold State.endCrossing
  try dsimp only
  repeat' first
    | with_reducible assumption
    | intro _
    | with_reducible apply State.endDecided_firm
    | with_reducible apply State.endCast_firm
    | with_reducible apply Steady.foldl

theorem State.endAll_firm (h : Steady z s) (cause : EndCause) : Steady z (State.endAll s cause) := by
  unfold State.endAll
  try dsimp only
  repeat' first
    | with_reducible assumption
    | intro _
    | with_reducible apply State.endCrossing_firm
    | with_reducible apply Steady.foldl

theorem State.closeLevels_firm (h : Steady z s) : Steady z (State.closeLevels s) := by
  unfold State.closeLevels
  try dsimp only
  repeat' first
    | with_reducible assumption
    | with_reducible refine Steady.upd ?_ ?_ ?_
    | with_reducible rfl

theorem State.recordValveEnd_firm (h : Steady z s) (v : Fin 8) (why : RunWhy) (how : Nat) :
    Steady z (State.recordValveEnd s v why how) := by
  unfold State.recordValveEnd
  try dsimp only
  repeat' first
    | with_reducible assumption
    | with_reducible apply State.record_firm
    | split

theorem State.arrive_firm (h : Steady z s) (v : Fin 8) : Steady z (State.arrive s v) := by
  unfold State.arrive
  try dsimp only
  repeat' first
    | with_reducible assumption
    | with_reducible apply State.modBridge_firm
    | with_reducible apply State.recordValveEnd_firm
    | split

theorem State.spoilHandover_firm (h : Steady z s) (hh : z.power.handover = none) (v : Fin 8) :
    Steady z (State.spoilHandover s v) := by
  have e : s.power.handover = none := by
    have e := h.eq
    simp only [State.firm, State.mk.injEq, Power.mk.injEq] at e
    simp_all
  unfold State.spoilHandover
  simp only [e, Option.map_none]
  exact h.upd (by rw [← e]) rfl

theorem State.limitFault_firm (h : Steady z s) (hh : z.power.handover = none) (v : Fin 8) (k : Nat) :
    Steady z (State.limitFault s v k) := by
  unfold State.limitFault
  try dsimp only
  repeat' first
    | with_reducible assumption
    | with_reducible apply State.modBridge_firm
    | with_reducible apply State.record_firm
    | with_reducible apply State.notice_firm
    | with_reducible apply State.pwrEvt_firm
    | with_reducible apply State.recordValveEnd_firm
    | with_reducible apply State.spoilHandover_firm
    | with_reducible apply State.endCrossing_firm
    | split

theorem State.openFirst_firm (h : Steady z s) (v : Fin 8) : Steady z (State.openFirst s v) := by
  unfold State.openFirst
  try dsimp only
  repeat' first
    | with_reducible assumption
    | with_reducible apply State.modValve_firm

theorem State.startRun_firm (h : Steady z s) (hh : z.power.handover = none) (v : Fin 8) (e : ValveEnd) (why : RunWhy) :
    Steady z (State.startRun s v e why) := by
  unfold State.startRun
  try dsimp only
  repeat' first
    | with_reducible assumption
    | with_reducible apply State.limitFault_firm
    | with_reducible apply State.spoilHandover_firm
    | with_reducible apply State.modBridge_firm
    | with_reducible apply State.recordValveEnd_firm
    | with_reducible apply State.openFirst_firm
    | with_reducible apply Steady.ite

theorem State.positionAim_firm (h : Steady z s) (hh : z.power.handover = none) (v : Fin 8) :
    Steady z (State.positionAim s v) := by
  unfold State.positionAim
  try dsimp only
  repeat' first
    | with_reducible assumption
    | with_reducible apply State.startRun_firm
    | split

theorem State.takeDemand_firm (h : Steady z s) (hh : z.power.handover = none) (v : Fin 8) (d : ValveDemand) :
    Steady z (State.takeDemand s v d) := by
  unfold State.takeDemand
  try dsimp only
  repeat' first
    | with_reducible assumption
    | with_reducible apply State.modValve_firm
    | with_reducible apply State.modBridge_firm
    | with_reducible apply State.openFirst_firm
    | with_reducible apply State.startRun_firm
    | with_reducible apply State.positionAim_firm
    | split

theorem State.applyValve_firm (h : Steady z s) (hh : z.power.handover = none) (v : Fin 8) : Steady z (State.applyValve s v) := by
  unfold State.applyValve
  try dsimp only
  repeat' first
    | with_reducible assumption
    | with_reducible apply State.takeDemand_firm
    | with_reducible apply Steady.ite

theorem State.solFault_firm (h : Steady z s) (c : Fin 32) (k : Nat) : Steady z (State.solFault s c k) := by
  unfold State.solFault
  try dsimp only
  repeat' first
    | with_reducible assumption
    | with_reducible apply State.modSol_firm
    | with_reducible apply State.endCrossing_firm

theorem State.missLanding_firm (h : Steady z s) (c : Fin 32) : Steady z (State.missLanding s c) := by
  unfold State.missLanding
  try dsimp only
  repeat' first
    | with_reducible assumption
    | with_reducible apply State.modX_firm

theorem State.closeWindow_firm (h : Steady z s) (c : Fin 32) : Steady z (State.closeWindow s c) := by
  unfold State.closeWindow
  try dsimp only
  repeat' first
    | with_reducible assumption
    | with_reducible apply State.modSol_firm
    | with_reducible apply State.missLanding_firm
    | with_reducible apply State.solDiag_firm
    | with_reducible apply State.solFault_firm
    | with_reducible apply Steady.ite

theorem State.endPeak_firm (h : Steady z s) (c : Fin 32) : Steady z (State.endPeak s c) := by
  unfold State.endPeak
  try dsimp only
  repeat' first
    | with_reducible assumption
    | with_reducible apply State.modSol_firm
    | with_reducible apply State.closeWindow_firm

theorem State.startPeak_firm (h : Steady z s) (c : Fin 32) : Steady z (State.startPeak s c) := by
  unfold State.startPeak
  try dsimp only
  repeat' first
    | with_reducible assumption
    | with_reducible apply State.modSol_firm
    | with_reducible apply State.endPeak_firm
    | split

theorem State.endBoost_firm (h : Steady z s) (c : Fin 32) : Steady z (State.endBoost s c) := by
  unfold State.endBoost
  try dsimp only
  repeat' first
    | with_reducible assumption
    | with_reducible apply State.releaseArbiter_firm
    | with_reducible apply State.startPeak_firm

theorem State.killBanks_firm (h : Steady z s) : Steady z (State.killBanks s) := by
  unfold State.killBanks
  try dsimp only
  repeat' first
    | with_reducible assumption
    | intro _
    | with_reducible apply State.modSol_firm
    | with_reducible apply State.modBank_firm
    | with_reducible apply State.endBoost_firm
    | with_reducible apply Steady.foldl
    | split

theorem State.applySlice_firm (h : Steady z s) (i : Fin 12) : Steady z (State.applySlice s i) := by
  unfold State.applySlice
  try dsimp only
  repeat' first
    | with_reducible assumption
    | intro _
    | with_reducible apply State.modSlice_firm
    | with_reducible apply State.modValve_firm
    | with_reducible apply State.openFirst_firm
    | with_reducible apply Steady.foldl
    | with_reducible apply Steady.ite

theorem State.applyBoost_firm (h : Steady z s) : Steady z (State.applyBoost s) := by
  unfold State.applyBoost
  try dsimp only
  repeat' first
    | with_reducible assumption
    | with_reducible apply State.modBoost_firm

theorem State.boostUnready_firm (h : Steady z s) : Steady z (State.boostUnready s) := by
  unfold State.boostUnready
  try dsimp only
  repeat' first
    | with_reducible assumption
    | intro _
    | with_reducible apply State.modSol_firm
    | with_reducible apply State.solDiag_firm
    | with_reducible apply Steady.foldl
    | with_reducible apply Steady.ite

theorem State.applyAll_firm (h : Steady z s) (hh : z.power.handover = none) : Steady z (State.applyAll s) := by
  unfold State.applyAll
  try dsimp only
  repeat' first
    | with_reducible assumption
    | intro _
    | with_reducible apply State.applySlice_firm
    | with_reducible apply State.applyBoost_firm
    | with_reducible apply State.applySol_firm
    | with_reducible apply State.boostUnready_firm
    | with_reducible apply State.applyValve_firm
    | with_reducible apply Steady.foldl
    | with_reducible apply Steady.ite


/-! ### Machine/Banks.lean -/

theorem State.chop_firm (h : Steady z s) (c : Fin 32) : Steady z (State.chop s c) := by
  unfold State.chop
  try dsimp only
  repeat' first
    | with_reducible assumption
    | with_reducible apply State.modSol_firm

theorem State.startBoost_firm (h : Steady z s) (c : Fin 32) (fromVbst : Bool) : Steady z (State.startBoost s c fromVbst) := by
  unfold State.startBoost
  try dsimp only
  repeat' first
    | with_reducible assumption
    | with_reducible apply State.modSol_firm
    | with_reducible apply State.modBank_firm
    | with_reducible apply State.chop_firm

theorem State.bankDiag_firm (h : Steady z s) (b : Fin 8) (k : Nat) (word : String) (data : Word) :
    Steady z (State.bankDiag s b k word data) := by
  unfold State.bankDiag
  try dsimp only
  repeat' first
    | with_reducible assumption
    | with_reducible apply State.modBank_firm
    | with_reducible apply State.record_firm
    | with_reducible apply State.notice_firm

theorem State.boostDiag_firm (h : Steady z s) (k : Nat) (word : String) (vbst : Nat) :
    Steady z (State.boostDiag s k word vbst) := by
  unfold State.boostDiag
  try dsimp only
  repeat' first
    | with_reducible assumption
    | with_reducible apply State.modBoost_firm
    | with_reducible apply State.record_firm
    | with_reducible apply State.notice_firm

theorem State.boostNotReady_firm (h : Steady z s) (b : Fin 8) (c : Fin 32) : Steady z (State.boostNotReady s b c) := by
  unfold State.boostNotReady
  try dsimp only
  repeat' first
    | with_reducible assumption
    | with_reducible apply State.solDiag_firm
    | with_reducible apply State.bankDiag_firm
    | with_reducible apply State.modSol_firm
    | with_reducible apply State.modBank_firm
    | with_reducible apply State.startBoost_firm
    | with_reducible apply State.dequeue_firm
    | with_reducible apply State.missLanding_firm
    | split

theorem State.seeVbst_firm (h : Steady z s) (vbst : Nat) : Steady z (State.seeVbst s vbst) := by
  unfold State.seeVbst
  try dsimp only
  repeat' first
    | with_reducible assumption
    | with_reducible apply State.modBoost_firm

theorem State.gainReady_firm (h : Steady z s) : Steady z (State.gainReady s) := by
  unfold State.gainReady
  try dsimp only
  repeat' first
    | with_reducible assumption
    | intro _
    | with_reducible apply State.startBoost_firm
    | with_reducible apply State.modBoost_firm
    | with_reducible apply Steady.foldl
    | with_reducible apply Steady.ite

theorem State.loseReady_firm (h : Steady z s) (vbst : Nat) : Steady z (State.loseReady s vbst) := by
  unfold State.loseReady
  try dsimp only
  repeat' first
    | with_reducible assumption
    | with_reducible apply State.modBoost_firm
    | with_reducible apply State.boostUnready_firm
    | with_reducible apply State.boostDiag_firm
    | with_reducible apply Steady.ite

theorem State.startOv_firm (h : Steady z s) (vbst : Nat) : Steady z (State.startOv s vbst) := by
  unfold State.startOv
  try dsimp only
  repeat' first
    | with_reducible assumption
    | with_reducible apply State.modBoost_firm
    | with_reducible apply State.boostDiag_firm

theorem State.rejudgeVbst_firm (h : Steady z s) : Steady z (State.rejudgeVbst s) := by
  unfold State.rejudgeVbst
  try dsimp only
  repeat' first
    | with_reducible assumption
    | with_reducible apply State.startOv_firm
    | with_reducible apply State.seeVbst_firm
    | with_reducible apply State.loseReady_firm
    | with_reducible apply State.gainReady_firm
    | with_reducible apply Steady.ite

theorem State.endInterval_firm (h : Steady z s) (c : Fin 32) : Steady z (State.endInterval s c) := by
  unfold State.endInterval
  try dsimp only
  repeat' first
    | with_reducible assumption
    | with_reducible apply State.solDiag_firm
    | with_reducible apply State.modSol_firm
    | with_reducible apply State.offDemand_firm
    | with_reducible apply Steady.ite

theorem State.seeTemp_firm (h : Steady z s) (b : Fin 8) (temp : Int) : Steady z (State.seeTemp s b temp) := by
  unfold State.seeTemp
  try dsimp only
  repeat' first
    | with_reducible assumption
    | with_reducible apply State.modBank_firm
    | with_reducible apply State.bankDiag_firm
    | with_reducible apply Steady.ite

theorem State.sampleCoil_firm (h : Steady z s) (c : Fin 32) : Steady z (State.sampleCoil s c) := by
  unfold State.sampleCoil
  try dsimp only
  repeat' first
    | with_reducible assumption
    | with_reducible apply State.modSol_firm
    | with_reducible apply Steady.ite

theorem State.sampleCoils_firm (h : Steady z s) : Steady z (State.sampleCoils s) := by
  unfold State.sampleCoils
  try dsimp only
  repeat' first
    | with_reducible assumption
    | intro _
    | with_reducible apply State.sampleCoil_firm
    | with_reducible apply Steady.foldl
    | with_reducible apply Steady.ite

theorem State.markBanks_firm (h : Steady z s) : Steady z (State.markBanks s) := by
  unfold State.markBanks
  try dsimp only
  repeat' first
    | with_reducible assumption
    | with_reducible refine Steady.upd ?_ ?_ ?_
    | with_reducible rfl

theorem State.tickBoost_firm (h : Steady z s) : Steady z (State.tickBoost s) := by
  unfold State.tickBoost
  try dsimp only
  repeat' first
    | with_reducible assumption
    | with_reducible apply State.modBoost_firm

theorem State.compareCoils_firm (h : Steady z s) : Steady z (State.compareCoils s) := by
  unfold State.compareCoils
  try dsimp only
  repeat' first
    | with_reducible assumption
    | with_reducible refine Steady.upd ?_ ?_ ?_
    | with_reducible rfl


/-! ### Machine/Valves.lean -/

theorem State.modPwm_firm (h : Steady z s) (f : Pwm → Pwm) : Steady z (State.modPwm s f) := by
  unfold State.modPwm
  try dsimp only
  repeat' first
    | with_reducible assumption
    | with_reducible refine Steady.upd ?_ ?_ ?_
    | with_reducible rfl

theorem State.sendSync_firm (h : Steady z s) (i : Fin 12) (tick : Nat) : Steady z (State.sendSync s i tick) := by
  unfold State.sendSync
  try dsimp only
  repeat' first
    | with_reducible assumption
    | with_reducible apply State.modSlice_firm
    | split

theorem State.chargeBoots_firm (h : Steady z s) (i : Fin 12) (tick : Nat) : Steady z (State.chargeBoots s i tick) := by
  unfold State.chargeBoots
  try dsimp only
  repeat' first
    | with_reducible assumption
    | intro _
    | with_reducible apply State.modValve_firm
    | with_reducible apply Steady.foldl
    | with_reducible apply Steady.ite

theorem State.endGates_firm (h : Steady z s) (i : Fin 12) (tick : Nat) : Steady z (State.endGates s i tick) := by
  unfold State.endGates
  try dsimp only
  repeat' first
    | with_reducible assumption
    | intro _
    | with_reducible apply State.endPeriodGates_firm
    | with_reducible apply Steady.foldl
    | with_reducible apply Steady.ite

theorem State.formPeriod_firm (h : Steady z s) (i : Fin 12) (tick : Nat) : Steady z (State.formPeriod s i tick) := by
  unfold State.formPeriod
  try dsimp only
  repeat' first
    | with_reducible assumption
    | with_reducible apply State.modSlice_firm

theorem State.syncMiss_firm (h : Steady z s) (i : Fin 12) : Steady z (State.syncMiss s i) := by
  unfold State.syncMiss
  try dsimp only
  repeat' first
    | with_reducible assumption
    | with_reducible apply State.modSlice_firm
    | with_reducible apply State.modPwm_firm
    | with_reducible apply State.record_firm

theorem State.movePos_firm (h : Steady z s) (v : Fin 8) : Steady z (State.movePos s v) := by
  unfold State.movePos
  try dsimp only
  repeat' first
    | with_reducible assumption
    | with_reducible apply State.modValve_firm
    | with_reducible apply Steady.ite

theorem State.positionStop_firm (h : Steady z s) (v : Fin 8) : Steady z (State.positionStop s v) := by
  unfold State.positionStop
  try dsimp only
  repeat' first
    | with_reducible assumption
    | with_reducible apply State.modBridge_firm
    | split

theorem State.positionAct_firm (h : Steady z s) (hh : z.power.handover = none) (v : Fin 8) :
    Steady z (State.positionAct s v) := by
  unfold State.positionAct
  try dsimp only
  repeat' first
    | with_reducible assumption
    | with_reducible apply State.positionStop_firm
    | with_reducible apply State.positionAim_firm
    | split

/-! ### Outputs in a unit that no handover and no limit action holds -/

/-- The fields a steady state shares. -/
theorem Steady.same (h : Steady z s) : s.unit = z.unit ∧ s.power.handover = z.power.handover ∧ s.motion = z.motion ∧ s.rst = z.rst
    ∧ s.regs = z.regs := by
  have e := h.eq
  simp only [State.firm, State.mk.injEq, Power.mk.injEq] at e
  exact ⟨by simp_all, by simp_all, by simp_all, by simp_all, by simp_all⟩

/-- With no handover and no limit action, the end of either finds nothing to do, and every output follows its demand. -/
theorem State.refresh_firm (h : Steady z s) (hh : z.power.handover = none) (hl : z.unit.limitAction = false) :
    Steady z (State.refresh s) := by
  have h1 := State.applyAll_firm h hh
  have e := h1.same
  have f1 : s.applyAll.finishHandover = s.applyAll := by
    unfold State.finishHandover
    rw [e.2.1, hh]
  have f2 : s.applyAll.finishLimit = s.applyAll := by
    unfold State.finishLimit
    rw [e.1, hl]
    rfl
  unfold State.refresh
  simp only [f1, f2]
  exact h1

end Sys2Proof.Machine
end

