-- ==== Sys2Proof/Laws/Line.lean ====
section
/-! SUPPORT. What a line that is heard comes to: its reply, or its refusal. -/
namespace Sys2Proof.Machine

open Sys2Proof

variable {s t : State} {ln : LineHdr} {i : Instr}

/-- What a state that only drives shares with the one before. -/
theorem Drives.same (h : Drives s t) : t.manil.chainQ = s.manil.chainQ ∧ t.manil.conQ = s.manil.conQ ∧ t.manil.held = s.manil.held
    ∧ t.rst = s.rst ∧ t.regs = s.regs ∧ t.phase = s.phase ∧ t.time = s.time ∧ t.clk = s.clk := by
  have e := h.eq
  simp only [State.still, State.mk.injEq, Manil.mk.injEq] at e
  simp_all

/-- Steady states drive. -/
theorem Steady.drives (h : Steady s t) : Drives s t := by
  have e := h.eq
  constructor
  simp only [State.firm, State.still, State.mk.injEq, Manil.mk.injEq] at *
  simp_all

/-- A let line is refused by its own checks only. -/
theorem State.refuse_lets {c : LineClass} {l : Legal} (h : s.Lets ln c l) (more : List (Option Err)) :
    s.refuse ln c l more = firstErr more := by
  have h1 : s.ownerErr ln.src c = none := by
    unfold State.ownerErr
    split
    · next hc =>
      obtain ⟨a, b⟩ := h.owner hc.1 hc.2
      simp [firstErr, errWord, errIf, a, b]
    · rfl
  have h2 : s.stateErr l = none := by
    unfold State.stateErr
    simp [h.handover, h.legal]
  simp [State.refuse, firstErr, h1, h2]

/-- A line that no queue holds stands as one complete after every tide so far. -/
theorem State.queued_heard (h : s.Hears ln) (i : Instr) :
    s.queued i ln.src = { what := .inl i, tides := s.manil.tideCount } := by
  unfold State.queued
  simp [h.first]

/-- With no reply held up and no RESET line waiting, an answer other than ERR 10 is its reply. -/
theorem State.answer_free {src : Source} {b : ReplyBody} (hh : t.manil.held = []) (hs : t.rst.soft = none)
    (hb : ∀ e, b = .err e → e.code ≠ 10) : t.answer src b none = t.reply src b false := by
  have hm : t.modRst ResetCtl.replyMade = t := by
    unfold State.modRst ResetCtl.replyMade
    rw [show t.rst.soft.map (fun (x : SoftReset) => { x with unsent := false }) = t.rst.soft by rw [hs]; rfl]
  have key : (t.modRst ResetCtl.replyMade).sendReply src b t.rst.replyDue none = t.reply src b false := by
    rw [hm]
    simp [State.sendReply, hh, State.payTurn, ResetCtl.replyDue, hs]
  unfold State.answer
  cases b with
  | ok x => exact key
  | err e => simp only [hb e rfl, if_false]; exact key

/-- A line that is heard and not refused has its effect, and its reply leaves. -/
theorem State.line_runs {run : QLine → State → State × Option ReplyBody} {b : ReplyBody} (h : s.Hears ln)
    (hr : run { what := .inl i, tides := s.manil.tideCount } s = (t, some b)) (hq : t.manil.queue ln.src = [])
    (hh : t.manil.held = []) (hs : t.rst.soft = none) (hb : ∀ e, b = .err e → e.code ≠ 10) :
    s.line i ln none run = t.reply ln.src b false := by
  have e1 : s.runLine i ln none run = t.reply ln.src b false := by
    have hd : s.dropLine i ln.src = s := by unfold State.dropLine; simp [h.first]
    unfold State.runLine
    simp [State.queued_heard h, hd, State.lacksSum, hr, State.answer_free hh hs hb]
  have hq' : (t.reply ln.src b false).manil.queue ln.src = [] := by
    have : (t.reply ln.src b false).manil.queue ln.src = t.manil.queue ln.src := by
      unfold State.reply
      cases ln.src with
      | chain => simp only []; split <;> rfl
      | console =>
        simp only [State.conLineOut, State.conSend]
        split <;> split <;> rfl
    rw [this, hq]
  unfold State.line
  simp [h.live, State.atHead, h.first, h.mine, e1, hq', State.answerRefused]

/-- So has one whose effect only drives. -/
theorem State.line_drives {run : QLine → State → State × Option ReplyBody} {b : ReplyBody} (h : s.Hears ln)
    (hr : run { what := .inl i, tides := s.manil.tideCount } s = (t, some b)) (hd : Drives s t)
    (hb : ∀ e, b = .err e → e.code ≠ 10) : s.line i ln none run = t.reply ln.src b false := by
  have e := hd.same
  refine State.line_runs h hr ?_ (e.2.2.1.trans h.held) (by rw [e.2.2.2.1]; exact h.soft) hb
  have := h.first
  cases hs : ln.src <;> rw [hs] at this <;> simp_all [Manil.queue]

/-- A line that tells, and changes nothing, replies. -/
theorem State.tellLine_runs {text : State → List Tok} (h : s.Hears ln) :
    s.tellLine i ln none id text = s.reply ln.src (.ok (text s)) false :=
  State.line_drives (b := .ok (text s)) h rfl (Drives.refl s) (fun _ e => nomatch e)

/-- A line that acts replies with a bare OK after its effect. -/
theorem State.plainLine_runs {run : State → State} (h : s.Hears ln) (hd : Drives s (run s)) :
    s.plainLine i ln none run = (run s).reply ln.src (.ok []) false :=
  State.line_drives (b := .ok []) h rfl hd (fun _ e => nomatch e)

/-- A line that is heard and refused answers its error and does nothing else. -/
theorem State.line_refused {run : QLine → State → State × Option ReplyBody} {e : Err} (h : s.Hears ln) (he : e.code ≠ 10) :
    s.line i ln (some e) run = s.reply ln.src (.err e) false := by
  have hd : s.dropLine i ln.src = s := by unfold State.dropLine; simp [h.first]
  have e1 : s.runLine i ln (some e) run = s.reply ln.src (.err e) false := by
    unfold State.runLine
    simp [State.queued_heard h, hd, State.lacksSum,
      State.answer_free (b := .err e) h.held h.soft (fun _ x => by cases x; exact he)]
  have hq : (s.reply ln.src (.err e) false).manil.queue ln.src = [] := by
    have : (s.reply ln.src (.err e) false).manil.queue ln.src = s.manil.queue ln.src := by
      unfold State.reply
      cases ln.src with
      | chain => simp only []; split <;> rfl
      | console =>
        simp only [State.conLineOut, State.conSend]
        split <;> split <;> rfl
    rw [this, h.first]
  unfold State.line
  simp [h.live, State.atHead, h.first, h.mine, e1, hq, State.answerRefused]

end Sys2Proof.Machine
end

