-- ==== Sys2Proof/WellFormed.lean ====
section
/-! DEFINITION. Which terms of `Instr` are commands that can come: lines as their grammar and the forms of Table 7.7 let them be written
(R168 to R175), sequences of the lengths of Table 6.2, characters and events as their rules give them. The meanings are total: they
give every term an effect, well-formed or not. -/
namespace Sys2Proof

open Sys2Proof.Machine

/-- A line's source and address (Table 7.3, R171): on the chain a unit, a range, all or `@0`; on the console `@.` or a unit. -/
def LineHdr.wf (ln : LineHdr) : Bool :=
  match ln.src, ln.addr with
  | .chain, .unit n => decide (1 ≤ n) && decide (n ≤ 128)
  | .chain, .range n m => decide (1 ≤ n) && decide (n ≤ m) && decide (m ≤ 128)
  | .chain, .all => true
  | .chain, .zero => true
  | .chain, .self => false
  | .console, .self => true
  | .console, .unit n => decide (1 ≤ n) && decide (n ≤ 128)
  | .console, _ => false

/-- A line of the chain alone (R166, R194). -/
def LineHdr.chainOnly (ln : LineHdr) : Bool := ln.wf && decide (ln.src = .chain)

/-- A number as it may be written for an argument whose base unit has this suffix (R172). -/
def LineNum.wf (n : LineNum) (unit : Option Suffix := none) : Bool :=
  decide (n.val.natAbs < 2 ^ 48) && (decide (n.suffix = none) || decide (n.suffix = unit))

/-- An optional number. -/
def optNumWf (n : Option LineNum) (unit : Option Suffix := none) : Bool := n.all fun x => x.wf unit

/-- A path (R173): a register of the index, or a name that is written. -/
def PathArg.wf : PathArg → Bool
  | .reg a => (pathInfo a.toNat).isSome
  | .unknown n => decide (n ≠ "")

/-- A value for a path, judged by the path's base unit (R172). -/
def valueWf (p : PathArg) (n : LineNum) : Bool :=
  match (pathAddr p).bind pathInfo with
  | some x => n.wf (pathSuffix x)
  | none => decide (n.val.natAbs < 2 ^ 48)

/-- A value for the path at an address. -/
def valueAt (a : Nat) (n : LineNum) : Bool := valueWf (regArg a) n

/-- A channel list has at least one item, of numbers that can be written (R172, R174). -/
def chansWf (l : List ChanItem) : Bool :=
  !l.isEmpty && l.all fun x => match x with
    | .one n => decide (n < 2 ^ 48)
    | .range a b => decide (a < 2 ^ 48) && decide (b < 2 ^ 48)
    | .all => true

/-- A date in the digits of its shape (R175). -/
def DateArg.wf (d : DateArg) : Bool :=
  decide (d.year ≤ 9999) && [d.month, d.day, d.hour, d.minute, d.second].all fun n => decide (n ≤ 99)

/-- A control sequence of `n` characters, their CRC the last, or one that is cut before its last (R137, Table 6.2). -/
def SeqArrival.wf (n : Nat) : SeqArrival → Bool
  | .whole bytes => decide (bytes.length = n)
  | .cut bytes => decide (bytes.length < n)

/-- The command can come. -/
def Instr.wf : Instr → Bool
  | .lineFrame _ _ => true
  | .consoleCharacter _ => true
  | .invalidCharacter _ ch => decide (0x10C < ch.toNat)
  | .receiverAligned _ => true
  | .alignmentLost _ => true
  | .upInsertion _ => true
  | .kill _ => true
  | .tide seq => seq.wf 4
  | .tideApply => true
  | .domainGroupOn => true
  | .enumMeasure seq => seq.wf 7
  | .enumEcho _ _ => true
  | .enumAssign seq => seq.wf 7
  | .enumHop seq => seq.wf 7
  | .enumQuietExpiry => true
  | .turnEnum seq => seq.wf 7
  | .turnSweep seq => seq.wf 7
  | .turnSweepTimeout => true
  | .helmq _ seq => seq.wf 2
  | .helmg _ seq => seq.wf 2
  | .helmd _ seq => seq.wf 2
  | .helmqExpiry => true
  | .timeSequence seq _ => seq.wf 9
  | .downstreamLinkLost => true
  | .downstreamLinkUp => true
  | .holdoverEntry => true
  | .upstreamPortTaken bow stern => bow || stern
  | .rateRecognised _ => true
  | .rateLost => true
  | .clpllLock => true
  | .xoStable => true
  | .xoFail => true
  | .ircFail => true
  | .ircRecovery => true
  | .lxoFail => true
  | .lxoRecovery => true
  | .thiWrap => true
  | .powerOn => true
  | .brownVdd => true
  | .brownVio => true
  | .brownVdda => true
  | .pin _ => true
  | .watchdog => true
  | .software => true
  | .debug => true
  | .debugHalt => true
  | .clockFail => true
  | .lockupPurser => true
  | .lockupPilot => true
  | .resetRelease => true
  | .ckWake _ => true
  | .wakePin => true
  | .powerUp _ _ _ => true
  | .firmwareBoot => true
  | .powerDown => true
  | .handover _ => true
  | .vbatReturn _ => true
  | .hoTimeout => true
  | .handoverReturn => true
  | .vbatHigh _ => true
  | .vbatHighRelease _ => true
  | .finEdge _ _ _ _ _ => true
  | .finStopped _ => true
  | .encoderRead _ => true
  | .encoderReadEnd _ _ => true
  | .odoStop => true
  | .speedStale => true
  | .watch => true
  | .cast _ => true
  | .armatureDip _ => true
  | .closeLanding _ => true
  | .valveLanding _ => true
  | .boostGrant _ => true
  | .boostEnd _ _ => true
  | .peakEnd _ => true
  | .offComplete _ => true
  | .offwaitEnd _ => true
  | .bnrwaitExpiry _ => true
  | .boostReady _ => true
  | .notReady _ => true
  | .ov _ => true
  | .startFail _ => true
  | .pulsePeriodStart _ => true
  | .pulseOnEnd _ => true
  | .olOff _ => true
  | .sb _ => true
  | .sg _ _ => true
  | .otw _ _ => true
  | .ots _ _ => true
  | .actuationCountSave => true
  | .periodStart _ => true
  | .bootstrapRefresh _ _ => true
  | .calibration _ => true
  | .fltTrip _ _ => true
  | .limitInput _ _ _ => true
  | .valveTimedEnd _ => true
  | .homeTimeout _ => true
  | .brakeEnd _ => true
  | .positionUpdate => true
  | .loopSample _ => true
  | .loopWrite _ _ => true
  | .ainConversion _ _ => true
  | .traceCapture _ => true
  | .safetyInput _ _ _ _ => true
  | .discrepancyFault _ => true
  | .run10 _ => true
  | .musterSample => true
  | .musterExpiry => true
  | .recordCommit => true
  | .recordsLost => true
  | .optimeStep => true
  | .rateWindowEnd => true
  | .nonceExpiry _ => true
  | .authExpiry _ => true
  | .lockoutEnd _ => true
  | .calEnd => true
  | .id ln => ln.wf
  | .state ln => ln.wf
  | .get ln paths => ln.wf && decide (1 ≤ paths.length) && decide (paths.length ≤ 4) && paths.all PathArg.wf
  | .set ln pairs =>
    ln.wf && decide (1 ≤ pairs.length) && decide (pairs.length ≤ 4) && pairs.all (fun x => x.1.wf && valueWf x.1 x.2) &&
      decide (setOf ln pairs = .set ln pairs)
  | .pwmDisWrite ln value => ln.wf && valueAt Reg.pwmDis value
  | .pwmDutyWrite ln k value => ln.wf && decide (8 ≤ k.val) && valueAt (Reg.pwmDuty k) value
  | .ptgtWrite ln v value => ln.wf && valueAt (Reg.mvPtgt v) value
  | .vselWrite ln value => ln.wf && valueAt Reg.vsel value
  | .ownerKeyWrite ln k value => ln.wf && valueAt (0x1B10 + k.val) value
  | .counterClear ln path value => ln.wf && ((pathAddr path).any isEclr) && valueWf path value
  | .tune ln path value => ln.wf && path.wf && valueWf path value
  | .commit ln => ln.wf
  | .abort ln => ln.wf
  | .save ln => ln.wf
  | .saveReach ln => ln.wf
  | .imageList ln => ln.wf
  | .imageOpen ln _ size => ln.wf && size.wf
  | .imageData ln offset data => ln.wf && offset.wf && decide (data.length = 32)
  | .imageClose ln => ln.wf
  | .imageCancel ln => ln.wf
  | .imageRetire ln _ => ln.wf
  | .imageAcceptUntested ln => ln.wf
  | .reset ln level => ln.wf && optNumWf level
  | .anchor ln => ln.wf
  | .moor ln => ln.wf
  | .arm ln => ln.wf
  | .go ln => ln.wf
  | .halt ln => ln.wf
  | .killLine ln => ln.wf
  | .resume ln => ln.wf
  | .openVerb ln chans => ln.wf && chansWf chans
  | .close ln chans => ln.wf && chansWf chans
  | .pulse ln chans f d p => ln.wf && chansWf chans && f.wf (some .hz) && d.wf (some .percent) && optNumWf p (some .percent)
  | .home ln chans _ => ln.wf && chansWf chans
  | .drive ln ch duty => ln.wf && ch.wf && duty.wf (some .percent)
  | .cross ln ch pos action crossId duty flags =>
    ln.wf && ch.wf && pos.wf (some .mm) && crossId.wf && optNumWf duty (some .percent) && optNumWf flags &&
      (decide (action ≠ .duty) || duty.isSome) && (flags.isNone || duty.isSome)
  | .recallOne ln ch crossId => ln.wf && ch.wf && crossId.wf
  | .recallChannelAll ln ch => ln.wf && ch.wf
  | .recallAll ln => ln.wf
  | .shut ln chans => ln.wf && chansWf chans
  | .free ln chans => ln.wf && chansWf chans
  | .speed ln v w => ln.wf && v.wf && w.wf
  | .time ln => ln.wf
  | .timeSet ln date => ln.wf && date.wf
  | .muster ln t paths => ln.chainOnly && t.wf && decide (paths.length ≤ 4) && paths.all PathArg.wf
  | .musterRecall ln t => ln.chainOnly && t.wf
  | .traceStatus ln b => ln.wf && b.wf
  | .traceArm ln b => ln.wf && b.wf
  | .traceForce ln b => ln.wf && b.wf
  | .traceStop ln b => ln.wf && b.wf
  | .traceDump ln b i => ln.wf && b.wf && i.wf
  | .log ln seq count => ln.wf && optNumWf seq && optNumWf count && (count.isNone || seq.isSome)
  | .auth ln => ln.wf
  | .authResponse ln response => ln.wf && decide (response.length = 6)
  | .clearLog ln => ln.wf
  | .clearFlt ln g => ln.wf && decide (0 ≤ g.val) && decide (g.val ≤ 2) && g.wf
  | .clearChannels ln chans => ln.wf && chansWf chans
  | .helm ln => ln.wf
  | .enum ln => ln.wf
  | .adopt ln _ n => ln.chainOnly && decide (ln.addr = .zero) && n.wf
  | .lockConsole ln => ln.wf
  | .lockNone ln => ln.wf
  | .queryList ln => ln.wf
  | .queryVerb ln verb => ln.wf && verbs.contains verb
  | .queryPath ln path => ln.wf && path.wf
  | .vbatGood _ _ => true
  | .choppingPeriod _ _ => true
  | .vgdUndervoltage _ => true
  | .bootstrapUndervoltage _ _ _ => true

/-- The header of a command that is a Manil line; a command that is none has no header. -/
def Instr.header : Instr → Option LineHdr
  | .id ln | .state ln | .get ln _ | .set ln _ | .pwmDisWrite ln _ | .pwmDutyWrite ln _ _ | .ptgtWrite ln _ _ | .vselWrite ln _
  | .ownerKeyWrite ln _ _ | .counterClear ln _ _ | .tune ln _ _ | .commit ln | .abort ln | .save ln | .saveReach ln | .imageList ln
  | .imageOpen ln _ _ | .imageData ln _ _ | .imageClose ln | .imageCancel ln | .imageRetire ln _ | .imageAcceptUntested ln | .reset ln _
  | .anchor ln | .moor ln | .arm ln | .go ln | .halt ln | .killLine ln | .resume ln | .openVerb ln _ | .close ln _ | .pulse ln _ _ _ _
  | .home ln _ _ | .drive ln _ _ | .cross ln _ _ _ _ _ _ | .recallOne ln _ _ | .recallChannelAll ln _ | .recallAll ln | .shut ln _
  | .free ln _ | .speed ln _ _ | .time ln | .timeSet ln _ | .muster ln _ _ | .musterRecall ln _ | .traceStatus ln _ | .traceArm ln _
  | .traceForce ln _ | .traceStop ln _ | .traceDump ln _ _ | .log ln _ _ | .auth ln | .authResponse ln _ | .clearLog ln | .clearFlt ln _
  | .clearChannels ln _ | .helm ln | .enum ln | .adopt ln _ _ | .lockConsole ln | .lockNone ln | .queryList ln | .queryVerb ln _
  | .queryPath ln _ => some ln
  | .lineFrame _ _ | .consoleCharacter _ | .invalidCharacter _ _ | .receiverAligned _ | .alignmentLost _ | .upInsertion _ | .kill _
  | .tide _ | .tideApply | .domainGroupOn | .enumMeasure _ | .enumEcho _ _ | .enumAssign _ | .enumHop _ | .enumQuietExpiry | .turnEnum _
  | .turnSweep _ | .turnSweepTimeout | .helmq _ _ | .helmg _ _ | .helmd _ _ | .helmqExpiry | .timeSequence _ _ | .downstreamLinkLost
  | .downstreamLinkUp | .holdoverEntry | .upstreamPortTaken _ _ | .rateRecognised _ | .rateLost | .clpllLock | .xoStable | .xoFail
  | .ircFail | .ircRecovery | .lxoFail | .lxoRecovery | .thiWrap | .powerOn | .brownVdd | .brownVio | .brownVdda | .pin _ | .watchdog
  | .software | .debug | .debugHalt | .clockFail | .lockupPurser | .lockupPilot | .resetRelease | .ckWake _ | .wakePin | .powerUp _ _ _
  | .firmwareBoot | .powerDown | .handover _ | .vbatReturn _ | .hoTimeout | .handoverReturn | .vbatHigh _ | .vbatHighRelease _
  | .finEdge _ _ _ _ _ | .finStopped _ | .encoderRead _ | .encoderReadEnd _ _ | .odoStop | .speedStale | .watch | .cast _ | .armatureDip _
  | .closeLanding _ | .valveLanding _ | .boostGrant _ | .boostEnd _ _ | .peakEnd _ | .offComplete _ | .offwaitEnd _ | .bnrwaitExpiry _
  | .boostReady _ | .notReady _ | .ov _ | .startFail _ | .pulsePeriodStart _ | .pulseOnEnd _ | .olOff _ | .sb _ | .sg _ _ | .otw _ _
  | .ots _ _ | .actuationCountSave | .periodStart _ | .bootstrapRefresh _ _ | .calibration _ | .fltTrip _ _ | .limitInput _ _ _
  | .valveTimedEnd _ | .homeTimeout _ | .brakeEnd _ | .positionUpdate | .loopSample _ | .loopWrite _ _ | .ainConversion _ _
  | .traceCapture _ | .safetyInput _ _ _ _ | .discrepancyFault _ | .run10 _ | .musterSample | .musterExpiry | .recordCommit | .recordsLost
  | .optimeStep | .rateWindowEnd | .nonceExpiry _ | .authExpiry _ | .lockoutEnd _ | .calEnd | .vbatGood _ _ | .choppingPeriod _ _
  | .vgdUndervoltage _ | .bootstrapUndervoltage _ _ _ => none

end Sys2Proof
end

