-- ==== Sys2Proof/Laws/PerInstr.lean ====
section
/-! SUPPORT. What holds of every command as syntax, constructor by constructor: the family `Header`. -/
namespace Sys2Proof.Laws.Header

open Sys2Proof

/-- A well-formed line has a well-formed header: a source, and an address that source may write (R171). -/
def Statement (i : Instr) : Prop := i.wf = true → ∀ ln, i.header = some ln → ln.wf = true

/-- A command without a header. -/
theorem none_of {i : Instr} (h : i.header = none) : Statement i := fun _ ln e => by rw [h] at e; exact nomatch e

/-- A line whose conditions begin with those of its header. -/
theorem some_of {i : Instr} {ln : LineHdr} (h : i.header = some ln) (w : i.wf = true → ln.wf = true) : Statement i :=
  fun hw x e => by rw [h] at e; cases e; exact w hw

/-- The first of the conditions. -/
theorem left1 {a b : Bool} (h : (a && b) = true) : a = true := (Bool.and_eq_true_iff.1 h).1
theorem left2 {a b c : Bool} (h : (a && b && c) = true) : a = true := left1 (left1 h)
theorem left3 {a b c d : Bool} (h : (a && b && c && d) = true) : a = true := left2 (left1 h)
theorem left4 {a b c d e : Bool} (h : (a && b && c && d && e) = true) : a = true := left3 (left1 h)
theorem left5 {a b c d e f : Bool} (h : (a && b && c && d && e && f) = true) : a = true := left4 (left1 h)
theorem left6 {a b c d e f g : Bool} (h : (a && b && c && d && e && f && g) = true) : a = true := left5 (left1 h)
theorem left7 {a b c d e f g i : Bool} (h : (a && b && c && d && e && f && g && i) = true) : a = true := left6 (left1 h)

/-- A line of the chain alone has a header in form. -/
theorem chain {ln : LineHdr} (h : ln.chainOnly = true) : ln.wf = true := left1 h

theorem lineFrame (port : Port) (fr : FrameArrival) : Statement (.lineFrame port fr) := none_of rfl
theorem consoleCharacter (c : ConsoleChar) : Statement (.consoleCharacter c) := none_of rfl
theorem invalidCharacter (port : Port) (ch : ChainChar) : Statement (.invalidCharacter port ch) := none_of rfl
theorem receiverAligned (port : Port) : Statement (.receiverAligned port) := none_of rfl
theorem alignmentLost (port : Port) : Statement (.alignmentLost port) := none_of rfl
theorem upInsertion (arriving : List ChainChar) : Statement (.upInsertion arriving) := none_of rfl
theorem kill (port : Port) : Statement (.kill port) := none_of rfl
theorem tide (seq : SeqArrival) : Statement (.tide seq) := none_of rfl
theorem tideApply : Statement (.tideApply) := none_of rfl
theorem domainGroupOn : Statement (.domainGroupOn) := none_of rfl
theorem enumMeasure (seq : SeqArrival) : Statement (.enumMeasure seq) := none_of rfl
theorem enumEcho (fromHelm : Bool) (roundTrip : Nat) : Statement (.enumEcho fromHelm roundTrip) := none_of rfl
theorem enumAssign (seq : SeqArrival) : Statement (.enumAssign seq) := none_of rfl
theorem enumHop (seq : SeqArrival) : Statement (.enumHop seq) := none_of rfl
theorem enumQuietExpiry : Statement (.enumQuietExpiry) := none_of rfl
theorem turnEnum (seq : SeqArrival) : Statement (.turnEnum seq) := none_of rfl
theorem turnSweep (seq : SeqArrival) : Statement (.turnSweep seq) := none_of rfl
theorem turnSweepTimeout : Statement (.turnSweepTimeout) := none_of rfl
theorem helmq (port : Port) (seq : SeqArrival) : Statement (.helmq port seq) := none_of rfl
theorem helmg (port : Port) (seq : SeqArrival) : Statement (.helmg port seq) := none_of rfl
theorem helmd (port : Port) (seq : SeqArrival) : Statement (.helmd port seq) := none_of rfl
theorem helmqExpiry : Statement (.helmqExpiry) := none_of rfl
theorem timeSequence (seq : SeqArrival) (sub : Byte) : Statement (.timeSequence seq sub) := none_of rfl
theorem downstreamLinkLost : Statement (.downstreamLinkLost) := none_of rfl
theorem downstreamLinkUp : Statement (.downstreamLinkUp) := none_of rfl
theorem holdoverEntry : Statement (.holdoverEntry) := none_of rfl
theorem upstreamPortTaken (bow : Bool) (stern : Bool) : Statement (.upstreamPortTaken bow stern) := none_of rfl
theorem rateRecognised (code : Fin 16) : Statement (.rateRecognised code) := none_of rfl
theorem rateLost : Statement (.rateLost) := none_of rfl
theorem clpllLock : Statement (.clpllLock) := none_of rfl
theorem xoStable : Statement (.xoStable) := none_of rfl
theorem xoFail : Statement (.xoFail) := none_of rfl
theorem ircFail : Statement (.ircFail) := none_of rfl
theorem ircRecovery : Statement (.ircRecovery) := none_of rfl
theorem lxoFail : Statement (.lxoFail) := none_of rfl
theorem lxoRecovery : Statement (.lxoRecovery) := none_of rfl
theorem thiWrap : Statement (.thiWrap) := none_of rfl
theorem powerOn : Statement (.powerOn) := none_of rfl
theorem brownVdd : Statement (.brownVdd) := none_of rfl
theorem brownVio : Statement (.brownVio) := none_of rfl
theorem brownVdda : Statement (.brownVdda) := none_of rfl
theorem pin (lowNs : Nat) : Statement (.pin lowNs) := none_of rfl
theorem watchdog : Statement (.watchdog) := none_of rfl
theorem software : Statement (.software) := none_of rfl
theorem debug : Statement (.debug) := none_of rfl
theorem debugHalt : Statement (.debugHalt) := none_of rfl
theorem clockFail : Statement (.clockFail) := none_of rfl
theorem lockupPurser : Statement (.lockupPurser) := none_of rfl
theorem lockupPilot : Statement (.lockupPilot) := none_of rfl
theorem resetRelease : Statement (.resetRelease) := none_of rfl
theorem ckWake (port : Port) : Statement (.ckWake port) := none_of rfl
theorem wakePin : Statement (.wakePin) := none_of rfl
theorem powerUp (strap : Fin 16) (failedCheck : Option Word) (ckEdgeSeen : Bool) : Statement (.powerUp strap failedCheck ckEdgeSeen) := none_of rfl
theorem firmwareBoot : Statement (.firmwareBoot) := none_of rfl
theorem powerDown : Statement (.powerDown) := none_of rfl
theorem handover (vbat : Nat) : Statement (.handover vbat) := none_of rfl
theorem vbatReturn (vbat : Nat) : Statement (.vbatReturn vbat) := none_of rfl
theorem hoTimeout : Statement (.hoTimeout) := none_of rfl
theorem handoverReturn : Statement (.handoverReturn) := none_of rfl
theorem vbatHigh (vbat : Nat) : Statement (.vbatHigh vbat) := none_of rfl
theorem vbatHighRelease (vbat : Nat) : Statement (.vbatHighRelease vbat) := none_of rfl
theorem finEdge (n : Fin 8) (level : Bool) (stamp : ChainTime) (cycles : Nat) (partnerToo : Bool) : Statement (.finEdge n level stamp cycles partnerToo) := none_of rfl
theorem finStopped (n : Fin 8) : Statement (.finStopped n) := none_of rfl
theorem encoderRead (p : Fin 4) : Statement (.encoderRead p) := none_of rfl
theorem encoderReadEnd (p : Fin 4) (r : EncoderRead) : Statement (.encoderReadEnd p r) := none_of rfl
theorem odoStop : Statement (.odoStop) := none_of rfl
theorem speedStale : Statement (.speedStale) := none_of rfl
theorem watch : Statement (.watch) := none_of rfl
theorem cast (c : Fin 40) : Statement (.cast c) := none_of rfl
theorem armatureDip (c : Fin 32) : Statement (.armatureDip c) := none_of rfl
theorem closeLanding (c : Fin 32) : Statement (.closeLanding c) := none_of rfl
theorem valveLanding (v : Fin 8) : Statement (.valveLanding v) := none_of rfl
theorem boostGrant (b : Fin 8) : Statement (.boostGrant b) := none_of rfl
theorem boostEnd (c : Fin 32) (filtered : Nat) : Statement (.boostEnd c filtered) := none_of rfl
theorem peakEnd (c : Fin 32) : Statement (.peakEnd c) := none_of rfl
theorem offComplete (c : Fin 32) : Statement (.offComplete c) := none_of rfl
theorem offwaitEnd (c : Fin 32) : Statement (.offwaitEnd c) := none_of rfl
theorem bnrwaitExpiry (b : Fin 8) : Statement (.bnrwaitExpiry b) := none_of rfl
theorem boostReady (vbst : Nat) : Statement (.boostReady vbst) := none_of rfl
theorem notReady (vbst : Nat) : Statement (.notReady vbst) := none_of rfl
theorem ov (vbst : Nat) : Statement (.ov vbst) := none_of rfl
theorem startFail (vbst : Nat) : Statement (.startFail vbst) := none_of rfl
theorem pulsePeriodStart (c : Fin 32) : Statement (.pulsePeriodStart c) := none_of rfl
theorem pulseOnEnd (c : Fin 32) : Statement (.pulseOnEnd c) := none_of rfl
theorem olOff (c : Fin 32) : Statement (.olOff c) := none_of rfl
theorem sb (c : Fin 32) : Statement (.sb c) := none_of rfl
theorem sg (b : Fin 8) (named : Option (Fin 4)) : Statement (.sg b named) := none_of rfl
theorem otw (b : Fin 8) (temp : Int) : Statement (.otw b temp) := none_of rfl
theorem ots (b : Fin 8) (temp : Int) : Statement (.ots b temp) := none_of rfl
theorem actuationCountSave : Statement (.actuationCountSave) := none_of rfl
theorem periodStart (k : Fin 12) : Statement (.periodStart k) := none_of rfl
theorem bootstrapRefresh (v : Fin 8) (h : Half) : Statement (.bootstrapRefresh v h) := none_of rfl
theorem calibration (taps : Nat) : Statement (.calibration taps) := none_of rfl
theorem fltTrip (g : Fin 3) (active : Bool) : Statement (.fltTrip g active) := none_of rfl
theorem limitInput (v : Fin 8) (e : ValveEnd) (level : Bool) : Statement (.limitInput v e level) := none_of rfl
theorem valveTimedEnd (v : Fin 8) : Statement (.valveTimedEnd v) := none_of rfl
theorem homeTimeout (v : Fin 8) : Statement (.homeTimeout v) := none_of rfl
theorem brakeEnd (v : Fin 8) : Statement (.brakeEnd v) := none_of rfl
theorem positionUpdate : Statement (.positionUpdate) := none_of rfl
theorem loopSample (l : Fin 8) : Statement (.loopSample l) := none_of rfl
theorem loopWrite (l : Fin 8) (computed : Bool) : Statement (.loopWrite l computed) := none_of rfl
theorem ainConversion (vin : Nat) (vref : Nat) : Statement (.ainConversion vin vref) := none_of rfl
theorem traceCapture (b : Fin 4) : Statement (.traceCapture b) := none_of rfl
theorem safetyInput (p : Fin 4) (ch : PairChannel) (level : Bool) (both : Bool) : Statement (.safetyInput p ch level both) := none_of rfl
theorem discrepancyFault (p : Fin 4) : Statement (.discrepancyFault p) := none_of rfl
theorem run10 (p : Fin 4) : Statement (.run10 p) := none_of rfl
theorem musterSample : Statement (.musterSample) := none_of rfl
theorem musterExpiry : Statement (.musterExpiry) := none_of rfl
theorem recordCommit : Statement (.recordCommit) := none_of rfl
theorem recordsLost : Statement (.recordsLost) := none_of rfl
theorem optimeStep : Statement (.optimeStep) := none_of rfl
theorem rateWindowEnd : Statement (.rateWindowEnd) := none_of rfl
theorem nonceExpiry (src : Source) : Statement (.nonceExpiry src) := none_of rfl
theorem authExpiry (src : Source) : Statement (.authExpiry src) := none_of rfl
theorem lockoutEnd (src : Source) : Statement (.lockoutEnd src) := none_of rfl
theorem calEnd : Statement (.calEnd) := none_of rfl
theorem id (ln : LineHdr) : Statement (.id ln) := some_of rfl (fun h => h)
theorem state (ln : LineHdr) : Statement (.state ln) := some_of rfl (fun h => h)
theorem get (ln : LineHdr) (paths : List PathArg) : Statement (.get ln paths) := some_of rfl left3
theorem set (ln : LineHdr) (pairs : List (PathArg × LineNum)) : Statement (.set ln pairs) := some_of rfl left4
theorem pwmDisWrite (ln : LineHdr) (value : LineNum) : Statement (.pwmDisWrite ln value) := some_of rfl left1
theorem pwmDutyWrite (ln : LineHdr) (k : Fin 12) (value : LineNum) : Statement (.pwmDutyWrite ln k value) := some_of rfl left2
theorem ptgtWrite (ln : LineHdr) (v : Fin 8) (value : LineNum) : Statement (.ptgtWrite ln v value) := some_of rfl left1
theorem vselWrite (ln : LineHdr) (value : LineNum) : Statement (.vselWrite ln value) := some_of rfl left1
theorem ownerKeyWrite (ln : LineHdr) (k : Fin 6) (value : LineNum) : Statement (.ownerKeyWrite ln k value) := some_of rfl left1
theorem counterClear (ln : LineHdr) (path : PathArg) (value : LineNum) : Statement (.counterClear ln path value) := some_of rfl left2
theorem tune (ln : LineHdr) (path : PathArg) (value : LineNum) : Statement (.tune ln path value) := some_of rfl left2
theorem commit (ln : LineHdr) : Statement (.commit ln) := some_of rfl (fun h => h)
theorem abort (ln : LineHdr) : Statement (.abort ln) := some_of rfl (fun h => h)
theorem save (ln : LineHdr) : Statement (.save ln) := some_of rfl (fun h => h)
theorem saveReach (ln : LineHdr) : Statement (.saveReach ln) := some_of rfl (fun h => h)
theorem imageList (ln : LineHdr) : Statement (.imageList ln) := some_of rfl (fun h => h)
theorem imageOpen (ln : LineHdr) (slot : Slot) (size : LineNum) : Statement (.imageOpen ln slot size) := some_of rfl left1
theorem imageData (ln : LineHdr) (offset : LineNum) (data : List Byte) : Statement (.imageData ln offset data) := some_of rfl left2
theorem imageClose (ln : LineHdr) : Statement (.imageClose ln) := some_of rfl (fun h => h)
theorem imageCancel (ln : LineHdr) : Statement (.imageCancel ln) := some_of rfl (fun h => h)
theorem imageRetire (ln : LineHdr) (slot : Slot) : Statement (.imageRetire ln slot) := some_of rfl (fun h => h)
theorem imageAcceptUntested (ln : LineHdr) : Statement (.imageAcceptUntested ln) := some_of rfl (fun h => h)
theorem reset (ln : LineHdr) (level : Option LineNum) : Statement (.reset ln level) := some_of rfl left1
theorem anchor (ln : LineHdr) : Statement (.anchor ln) := some_of rfl (fun h => h)
theorem moor (ln : LineHdr) : Statement (.moor ln) := some_of rfl (fun h => h)
theorem arm (ln : LineHdr) : Statement (.arm ln) := some_of rfl (fun h => h)
theorem go (ln : LineHdr) : Statement (.go ln) := some_of rfl (fun h => h)
theorem halt (ln : LineHdr) : Statement (.halt ln) := some_of rfl (fun h => h)
theorem killLine (ln : LineHdr) : Statement (.killLine ln) := some_of rfl (fun h => h)
theorem resume (ln : LineHdr) : Statement (.resume ln) := some_of rfl (fun h => h)
theorem openVerb (ln : LineHdr) (chans : List ChanItem) : Statement (.openVerb ln chans) := some_of rfl left1
theorem close (ln : LineHdr) (chans : List ChanItem) : Statement (.close ln chans) := some_of rfl left1
theorem pulse (ln : LineHdr) (chans : List ChanItem) (f : LineNum) (d : LineNum) (p : Option LineNum) : Statement (.pulse ln chans f d p) := some_of rfl left4
theorem home (ln : LineHdr) (chans : List ChanItem) (target : Option ValveEnd) : Statement (.home ln chans target) := some_of rfl left1
theorem drive (ln : LineHdr) (ch : LineNum) (duty : LineNum) : Statement (.drive ln ch duty) := some_of rfl left2
theorem cross (ln : LineHdr) (ch : LineNum) (pos : LineNum) (action : CrossAction) (crossId : LineNum) (duty : Option LineNum) (flags : Option LineNum) : Statement (.cross ln ch pos action crossId duty flags) := some_of rfl left7
theorem recallOne (ln : LineHdr) (ch : LineNum) (crossId : LineNum) : Statement (.recallOne ln ch crossId) := some_of rfl left2
theorem recallChannelAll (ln : LineHdr) (ch : LineNum) : Statement (.recallChannelAll ln ch) := some_of rfl left1
theorem recallAll (ln : LineHdr) : Statement (.recallAll ln) := some_of rfl (fun h => h)
theorem shut (ln : LineHdr) (chans : List ChanItem) : Statement (.shut ln chans) := some_of rfl left1
theorem free (ln : LineHdr) (chans : List ChanItem) : Statement (.free ln chans) := some_of rfl left1
theorem speed (ln : LineHdr) (v : LineNum) (w : LineNum) : Statement (.speed ln v w) := some_of rfl left2
theorem time (ln : LineHdr) : Statement (.time ln) := some_of rfl (fun h => h)
theorem timeSet (ln : LineHdr) (date : DateArg) : Statement (.timeSet ln date) := some_of rfl left1
theorem muster (ln : LineHdr) (t : LineNum) (paths : List PathArg) : Statement (.muster ln t paths) := some_of rfl (fun h => chain (left3 h))
theorem musterRecall (ln : LineHdr) (t : LineNum) : Statement (.musterRecall ln t) := some_of rfl (fun h => chain (left1 h))
theorem traceStatus (ln : LineHdr) (b : LineNum) : Statement (.traceStatus ln b) := some_of rfl left1
theorem traceArm (ln : LineHdr) (b : LineNum) : Statement (.traceArm ln b) := some_of rfl left1
theorem traceForce (ln : LineHdr) (b : LineNum) : Statement (.traceForce ln b) := some_of rfl left1
theorem traceStop (ln : LineHdr) (b : LineNum) : Statement (.traceStop ln b) := some_of rfl left1
theorem traceDump (ln : LineHdr) (b : LineNum) (i : LineNum) : Statement (.traceDump ln b i) := some_of rfl left2
theorem log (ln : LineHdr) (seq : Option LineNum) (count : Option LineNum) : Statement (.log ln seq count) := some_of rfl left3
theorem auth (ln : LineHdr) : Statement (.auth ln) := some_of rfl (fun h => h)
theorem authResponse (ln : LineHdr) (response : List Byte) : Statement (.authResponse ln response) := some_of rfl left1
theorem clearLog (ln : LineHdr) : Statement (.clearLog ln) := some_of rfl (fun h => h)
theorem clearFlt (ln : LineHdr) (g : LineNum) : Statement (.clearFlt ln g) := some_of rfl left3
theorem clearChannels (ln : LineHdr) (chans : List ChanItem) : Statement (.clearChannels ln chans) := some_of rfl left1
theorem helm (ln : LineHdr) : Statement (.helm ln) := some_of rfl (fun h => h)
theorem enum (ln : LineHdr) : Statement (.enum ln) := some_of rfl (fun h => h)
theorem adopt (ln : LineHdr) (serial : ChainTime) (n : LineNum) : Statement (.adopt ln serial n) := some_of rfl (fun h => chain (left2 h))
theorem lockConsole (ln : LineHdr) : Statement (.lockConsole ln) := some_of rfl (fun h => h)
theorem lockNone (ln : LineHdr) : Statement (.lockNone ln) := some_of rfl (fun h => h)
theorem queryList (ln : LineHdr) : Statement (.queryList ln) := some_of rfl (fun h => h)
theorem queryVerb (ln : LineHdr) (verb : String) : Statement (.queryVerb ln verb) := some_of rfl left1
theorem queryPath (ln : LineHdr) (path : PathArg) : Statement (.queryPath ln path) := some_of rfl left1
theorem vbatGood (vbat : Nat) (vhld : Nat) : Statement (.vbatGood vbat vhld) := none_of rfl
theorem choppingPeriod (c : Fin 32) (current : Nat) : Statement (.choppingPeriod c current) := none_of rfl
theorem vgdUndervoltage (recovered : Bool) : Statement (.vgdUndervoltage recovered) := none_of rfl
theorem bootstrapUndervoltage (v : Fin 8) (h : Half) (recovered : Bool) : Statement (.bootstrapUndervoltage v h recovered) := none_of rfl

end Sys2Proof.Laws.Header
end

