-- ==== Sys2Proof/Tests/Slice0.lean ====
section
/-! SUPPORT. The model's own tests: terms that are not well-formed and are refused as such, one small step for the commands whose rules
name values, and for every statement with hypotheses a state and operands that meet them all. -/
namespace Sys2Proof.Tests

open Sys2Proof Sys2Proof.Machine

/-- A running unit at address 1 with its domains on, aligned and in TRACK, its upstream port the bow port. -/
def up : State :=
  { chain := { addr := 1, serial := 0x0123456789AB, hadPort := true, released := false, dnLink := true
               bow := { aligned := true }, stern := { aligned := true }, hopBValid := true, hopSValid := true }
    clocks := { ref := .ck, lock := true, mode := .track, aligned := true, xoStable := true, rate := 1, lastRate := 1 }
    power := { on := BitVec.allOnes 114, up := true, vbatGood := true, hldOk := true, vbat := 240, vhld := 200 }
    rst := { fromReset := false, coldBoot := false, lastCause := 0x41 }
    time := 1000000, clk := 2000000 }

/-- The unit in a state. -/
def upIn (st : UnitState) : State := { up with unit := { st := st } }

/-- The unit with registers of the file in force. -/
def upWith (regs : List (Nat × Word)) (st : UnitState := .moored) : State := { upIn st with regs := regs }

/-- The unit with a domain off. -/
def upWithout (d : Nat) : State := { up with power := { up.power with on := up.power.on &&& ~~~(BitVec.ofNat 114 (2 ^ d)) } }

/-- A chain line to this unit. -/
def ln : LineHdr := { src := .chain, addr := .unit 1 }

/-- A console line. -/
def con : LineHdr := { src := .console, addr := .self }

/-- A crossing. -/
def xing (ident : Word) (action : CrossAction := .open_) (late : Bool := false) (dir : Nat := 0) : Crossing :=
  { target := 5000, ident := ident, action := action, duty := 0, dir := dir, late := late, noLearn := false, notify := true
    noTc := false, stale := false }

/-- A crossing decided at the present time. -/
def chosen (ident : Word) (stage : Stage := .decided) (action : CrossAction := .open_) (landAt : Option ChainTime := none) : Current :=
  { x := xing ident action, stage := stage, ts := 1000000, before := .closed, landAt := landAt }

/-- The unit with one solenoid channel changed. -/
def upSol (c : Fin 32) (ch : SolChan) (st : UnitState := .ready) : State :=
  { upIn st with sol := { up.sol with chans := upd up.sol.chans c fun _ => ch } }

/-- The unit with one valve in mode VALVE, both limits enabled, and its predriver changed. -/
def upValve (v : Fin 8) (y : Valve) (st : UnitState := .ready) : State :=
  { upWith [(Reg.mvCfg v, 0x0400C1)] st with pwm := { up.pwm with valves := upd up.pwm.valves v fun _ => y } }

/-- The unit with one channel of the crossing engine changed. -/
def upX (c : Fin 40) (x : XChan) (st : UnitState := .underway) : State :=
  { upIn st with engine := { up.engine with chans := upd up.engine.chans c fun _ => x } }

/-- The unit with one safety pair changed and its configuration in force. -/
def upPair (p : Fin 4) (q : Pair) (cfg : Word) (st : UnitState := .ready) : State :=
  { upWith [(Reg.sfpCfg p, cfg)] st with safety := { up.safety with pairs := upd up.safety.pairs p fun _ => q } }

/-- The unit with one bank changed. -/
def upBank (b : Fin 8) (k : Bank) (s : State) : State := { s with sol := { s.sol with banks := upd s.sol.banks b fun _ => k } }

/-- A unit with its boost converter. -/
def upBoost (x : Boost) (s : State) : State := { s with sol := { s.sol with boost := x } }

/-- The unit with a grant for the chain. -/
def upGranted (st : UnitState := .moored) : State := { upIn st with owner := { chain := { grant := some 9000000 } } }

/-- A state at a chain time. -/
def withTime (t : ChainTime) (s : State) : State := { s with time := t }

/-- A valve that runs to an end, in the on-phase of its slice. -/
def gated (e : ValveEnd) : State :=
  let s := upValve 0 { bridge := .running, run := some { target := e, why := .manual, startClk := 0, timedEnd := none }
                       demand := .run e .manual }
  { s with pwm := { s.pwm with slices := upd s.pwm.slices 0 fun w =>
      { w with running := true, per := 1000, ton := 900, startTick := 479999900, endTick := 480000900, duty := 0xFFFFFF } } }


/-! ### Ill-formed terms are refused, one for each check -/

/-- None of the terms is well-formed. -/
def noneWf (l : List Instr) : Bool := l.all fun i => !i.wf

/-- All of the terms are well-formed. -/
def allWf (l : List Instr) : Bool := l.all Instr.wf

theorem test_addresses_out_of_range_are_ill_formed : noneWf
    [.id { src := .chain, addr := .unit 0 }, .id { src := .chain, addr := .unit 129 }, .id { src := .chain, addr := .range 5 4 },
     .id { src := .chain, addr := .range 1 129 }, .id { src := .chain, addr := .self }, .id { src := .console, addr := .all },
     .id { src := .console, addr := .zero }, .id { src := .console, addr := .unit 129 }] = true := by decide +kernel

theorem test_address_forms_are_well_formed : allWf
    [.id { src := .chain, addr := .unit 1 }, .id { src := .chain, addr := .unit 128 }, .id { src := .chain, addr := .range 4 4 },
     .id { src := .chain, addr := .all }, .id { src := .chain, addr := .zero }, .id con, .id { src := .console, addr := .unit 128 }]
    = true := by decide +kernel

theorem test_wrong_numbers_of_paths_are_ill_formed : noneWf
    [.get ln [], .get ln (List.replicate 5 (.reg 0x0500)), .set ln [], .set ln (List.replicate 5 (.reg 0x0802, { val := 0 })),
     .muster ln { val := 5 } (List.replicate 5 (.reg 0x0500)), .get ln [.reg 0xFFFF], .get ln [.unknown ""]] = true := by decide +kernel

theorem test_a_set_of_a_path_with_its_own_row_is_ill_formed : noneWf
    [.set ln [(.reg 0x1400, { val := 0 })], .counterClear ln (.reg 0x0802) { val := 1 }] = true := by decide +kernel

theorem test_numbers_too_large_or_with_a_wrong_suffix_are_ill_formed : noneWf
    [.speed ln { val := 2 ^ 48 } { val := 0 }, .speed ln { val := -2 ^ 48 } { val := 0 }, .drive ln { val := 1, suffix := some .mA } { val := 5 },
     .drive ln { val := 1 } { val := 5, suffix := some .ms }, .set ln [(.reg 0x1039, { val := 450, suffix := some .ms })],
     .pulse ln [.one 1] { val := 1, suffix := some .percent } { val := 1 } none] = true := by decide +kernel

theorem test_numbers_with_their_suffix_are_well_formed : allWf
    [.speed ln { val := 2 ^ 48 - 1 } { val := -5 }, .drive ln { val := 1 } { val := 5, suffix := some .percent },
     .pulse ln [.one 1] { val := 1, suffix := some .hz } { val := 1, suffix := some .percent } none] = true := by decide +kernel

theorem test_lines_outside_their_forms_are_ill_formed : noneWf
    [.openVerb ln [], .openVerb ln [.one (2 ^ 48)], .shut ln [.range 1 (2 ^ 48)], .queryVerb ln "SHIP", .pwmDutyWrite ln 7 { val := 0 },
     .imageData ln { val := 0 } (List.replicate 31 0), .authResponse ln [1, 2, 3, 4, 5], .clearFlt ln { val := 3 },
     .cross ln { val := 1 } { val := 2 } .duty { val := 3 } none none, .cross ln { val := 1 } { val := 2 } .open_ { val := 3 } none (some { val := 1 }),
     .log ln none (some { val := 1 }), .muster con { val := 5 } [], .musterRecall con { val := 5 }, .adopt ln 5 { val := 1 }]
    = true := by decide +kernel

theorem test_dates_outside_their_shape_are_ill_formed : noneWf
    [.timeSet ln { year := 10000, month := 1, day := 1, hour := 0, minute := 0, second := 0 },
     .timeSet ln { year := 2024, month := 100, day := 1, hour := 0, minute := 0, second := 0 }] = true := by decide +kernel

theorem test_events_outside_their_forms_are_ill_formed : noneWf
    [.tide (.whole [1, 2, 3]), .enumMeasure (.whole [1]), .turnSweep (.whole []), .helmq .bow (.whole [1]), .timeSequence (.whole [0]) 0,
     .invalidCharacter .bow 0x10C, .invalidCharacter .bow 0x041, .upstreamPortTaken false false] = true := by decide +kernel

theorem test_events_are_well_formed : allWf
    [.tide (.whole [1, 2, 3, 4]), .tide (.cut []), .enumMeasure (.whole [1, 0, 0, 0, 0, 0, 0]), .helmq .bow (.whole [0, 0]),
     .invalidCharacter .bow 0x10D, .rateRecognised 1, .upstreamPortTaken true false] = true := by decide +kernel

/-! ### The text (expected values: the manual's transcripts) -/

/-- `@3 STATE ~C9` (the transcript of the Manil chapter). -/
theorem test_checksum_of_a_line : crc8 [0x40, 0x33, 0x20, 0x53, 0x54, 0x41, 0x54, 0x45, 0x20] = 0xC9 := by decide +kernel

/-- `=3 OK MOORED ~EF`. -/
theorem test_checksum_of_a_reply :
    crc8 [0x3D, 0x33, 0x20, 0x4F, 0x4B, 0x20, 0x4D, 0x4F, 0x4F, 0x52, 0x45, 0x44, 0x20] = 0xEF := by decide +kernel

/-- What a reading gives, or nothing. -/
def readAs {α : Type} (x : Except Err α) : Option α :=
  match x with
  | .ok y => some y
  | .error _ => none

/-- `450mA` is a value of `CH07.HOLD`, `450ms` is not. -/
theorem test_typed_suffix : readAs (readNum ['4', '5', '0', 'm', 'A'] (some .mA)) = some { val := 450, suffix := some .mA } := by
  decide +kernel

theorem test_wrong_suffix : readAs (readNum ['4', '5', '0', 'm', 's'] (some .mA)) = none := by decide +kernel

/-- `#000630` and `#05.00`. -/
theorem test_hexadecimal_number : readAs (readNum ['#', '0', '0', '0', '6', '3', '0']) = some { val := 1584 } := by decide +kernel

theorem test_numeric_path : readAs (readPathArg ['#', '0', '5', '.', '0', '0']) = some (.reg 0x0500) := by decide +kernel

theorem test_address_range : readAddr ['@', '3', '-', '7'] = some (.range 3 7) := by decide +kernel

/-! ### Small steps (expected values: the manual's tables and worked cases) -/

/-- What a command leaves, looked at through `f`. -/
def leaves {α : Type} (i : Instr) (s : State) (f : State → α) : Option α :=
  match exec i s with
  | .next t => some (f t)
  | _ => none

/-- The rows of the carrier table: the natural period and the end of the on-phase, in ticks. -/
theorem test_carrier_fixed : periodOf (naturalPeriod false 120000 120000 0x600000) 100 400000 = (320000, false) := by decide +kernel

theorem test_carrier_constant_on : periodOf (naturalPeriod false 240000 2400000 0x400000) 100 2400000 = (960000, false) := by decide +kernel

theorem test_carrier_clamped : periodOf (naturalPeriod false 240000 2400000 0x0CCCCD) 100 2400000 = (2400000, true) ∧
    onEdge false 240000 0x0CCCCD true 2400000 / 512 = 120000 := by decide +kernel

theorem test_product_rounds : mulQ 52429 33824 = 1691 := by decide +kernel

theorem test_forward_term : mulQ 838861 853248 = 682599 := by decide +kernel

theorem test_kill_latches : leaves (.kill .bow) (upIn .underway) (·.unit.kill) = some true := by decide +kernel

theorem test_tide_lands_at_its_time :
    leaves (.tide (.whole (withCrc [0x20, 0x4E, 0x10]))) { up with manil := { staged := [(0x0802, 5)] } } (fun t => (t.manil.tides.length, t.manil.staged))
      = some (1, []) := by decide +kernel

theorem test_halt_keeps_underway_from_resuming : leaves (.halt ln) (upIn .underway) (·.unit.st) = some .ready := by decide +kernel

theorem test_moor : leaves (.moor ln) (upIn .ready) (·.unit.st) = some .moored := by decide +kernel

theorem test_go_needs_ready : leaves (.go ln) (upIn .moored) (·.unit.st) = some .moored := by decide +kernel

theorem test_step_takes_the_front : (match step { up with pending := [.thiWrap, .kill .bow] } with
    | .next t => some t.pending
    | _ => none) = some [.kill .bow] := by decide +kernel

/-- `set ch07.hold 450` is staged; 455 is off the 10 mA step. -/
theorem test_set_stages : leaves (.set ln [(.reg 0x1039, { val := 450 })]) up (·.manil.staged) = some [(0x1039, 450)] := by decide +kernel

theorem test_set_off_the_step : leaves (.set ln [(.reg 0x1039, { val := 455 })]) up (·.manil.staged) = some [] := by decide +kernel

/-- An edge every 10 750 µs gives the period 10 078 at DIV 6, and 100 × 3 750 000 / 9868 the frequency 38 002 at DIV 4. -/
theorem test_frequency :
    (upWith [(Reg.finCfg 2, 0x000430)]).finFrequency 2 = 0 ∧
    ({ upWith [(Reg.finCfg 2, 0x000430)] with motion := { up.motion with fins := upd up.motion.fins 2 fun x =>
        { x with stopped := false, period := 9868 } } } : State).finFrequency 2 = 38002 := by decide +kernel

/-! ### Every statement with hypotheses: a state and operands that meet them all, clause by clause -/

section

set_option Elab.async false

theorem witness_StepRunsTheFrontCommand :
    -- clause 1
    ((fun (c : Instr) (rest : List Instr) (s : State) =>
      s.pending = c :: rest)
      .thiWrap [.kill .bow] { up with pending := [.thiWrap, .kill .bow] }) := by
  refine ?_ <;> dsimp only <;> repeat' (first | refine And.intro ?_ ?_ | decide +kernel | constructor)

theorem witness_IdleStepLetsTimePass :
    -- clause 1, due
    ((fun (s : State) =>
      s.pending = [] ∧ s.dueCommands ≠ [] ∧ s.settle < 64)
      up) ∧
    -- clause 1, settled
    ((fun (s : State) =>
      s.pending = [] ∧ s.dueCommands ≠ [] ∧ 64 ≤ s.settle)
      { up with settle := 64 }) ∧
    -- clause 1, idle
    ((fun (s : State) =>
      s.pending = [] ∧ s.dueCommands = [])
      { phase := .anchored, pwm := { posDue := 9 } }) := by
  refine ⟨?_, ?_, ?_⟩ <;> dsimp only <;> repeat' (first | refine And.intro ?_ ?_ | decide +kernel | constructor)

theorem witness_CommandsKeepTheQueue :
    -- clause 1
    ((fun (c : Instr) (s t : State) =>
      s.Sound ∧ exec c s = .next t)
      .thiWrap up up) := by
  refine ?_ <;> dsimp only <;> repeat' (first | refine And.intro ?_ ?_ | decide +kernel | exact fun _ h => absurd rfl h | constructor)

theorem witness_StepKeepsTheStateSound :
    -- clause 1
    ((fun (s t : State) =>
      s.Sound ∧ step s = .next t ∧ step s = .next t)
      { up with pending := [.helmqExpiry] } up) := by
  refine ?_ <;> dsimp only <;> repeat' (first | refine And.intro ?_ ?_ | decide +kernel | exact fun _ h => absurd rfl h | constructor)

theorem witness_TheChainIsForwarded :
    -- clause 1, released
    ((fun (s : State) (_ : Port) (_ : WireItem) =>
      s.chain.released = true)
      State.reset .bow (.char 0x100)) ∧
    -- clause 1, dn
    ((fun (s : State) (p : Port) (_ : WireItem) =>
      s.chain.released = false ∧ p = s.chain.upPort ∧ s.portOn s.chain.upPort.other = true)
      up .bow (.char 0x100)) ∧
    -- clause 1, dn_off
    ((fun (s : State) (p : Port) (_ : WireItem) =>
      s.chain.released = false ∧ p = s.chain.upPort ∧ s.portOn s.chain.upPort.other = false)
      (upWithout 105) .bow (.char 0x100)) ∧
    -- clause 1, up_off
    ((fun (s : State) (p : Port) (_ : WireItem) =>
      s.chain.released = false ∧ p ≠ s.chain.upPort ∧ s.upFree = true ∧ s.portOn s.chain.upPort = false)
      (upWithout 104) .stern (.char 0x100)) ∧
    -- clause 1, up
    ((fun (s : State) (p : Port) (_ : WireItem) =>
      s.chain.released = false ∧ p ≠ s.chain.upPort)
      up .stern (.char 0x100)) ∧
    -- clause 2
    ((fun (p : Port) (s : State) =>
      s.coreUp = true ∧ s.portOn p = true)
      .stern up) ∧
    -- clause 3
    ((fun (p : Port) (s : State) =>
      s.coreUp = true ∧ (s.chain.port p).aligned = true)
      .bow up) ∧
    -- clause 4
    ((fun (p : Port) (ch : ChainChar) (s : State) =>
      s.coreUp = true ∧ s.portOn p = true ∧ (s.chain.port p).aligned = true ∧ 0x10C < ch.toNat ∧ s.farHelmAt p = false)
      .bow 0x10D up) ∧
    -- clause 5
    ((fun (p : Port) (_ : ChainChar) (s : State) =>
      s.coreUp = true ∧ s.portOn p = true ∧ (s.chain.port p).aligned = false)
      .bow 0x041 { up with chain := { up.chain with bow := {} } }) ∧
    -- clause 6
    ((fun (_ : List ChainChar) (u : UpItem) (rest : List UpItem) (s : State) =>
      s.onChain = true ∧ s.upGap = true ∧ s.chain.enumDue = none ∧ s.chain.upQ = u :: rest ∧ u.startsReset = false)
      [0x141] (.notice [.word "X"]) [] { up with chain := { up.chain with upQ := [.notice [.word "X"]], upBuf := List.replicate 255 0x100 } }) ∧
    -- clause 7, down
    ((fun (p : Port) (_ : FrameArrival) (s : State) =>
      s.gangwayOn = true ∧ p = s.chain.gangwayUp)
      .bow (.line [0x40]) { phase := .powerUp, chain := { gangway := true }, clk := 10 }) ∧
    -- clause 7, up
    ((fun (p : Port) (_ : FrameArrival) (s : State) =>
      s.gangwayOn = true ∧ p ≠ s.chain.gangwayUp)
      .bow (.line [0x40]) { phase := .powerUp, chain := { gangway := true, gangwayUp := .stern }, clk := 10 }) := by
  refine ⟨?_, ?_, ?_, ?_, ?_, ?_, ?_, ?_, ?_, ?_, ?_, ?_⟩ <;> dsimp only <;> repeat' (first | refine And.intro ?_ ?_ | decide +kernel | constructor)

theorem witness_TidesTakeWhatIsStaged :
    -- clause 1, ahead
    ((fun (bytes data : List Byte) (s : State) =>
      s.TakesIn s.chain.upPort ∧ SeqArrival.data (.whole bytes) 4 = some data ∧ s.manil.tides.length < 4 ∧ 2000 ≤ (BitVec.ofNat 24 (leNat data) - tlo s.time).toNat)
      (withCrc [0x20, 0x4E, 0x10]) [0x20, 0x4E, 0x10] { up with manil := { staged := [(0x0802, 5)] } }) ∧
    -- clause 1, late
    ((fun (bytes data : List Byte) (s : State) =>
      s.TakesIn s.chain.upPort ∧ SeqArrival.data (.whole bytes) 4 = some data ∧ s.manil.tides.length < 4 ∧ (8388607 < (BitVec.ofNat 24 (leNat data) - tlo s.time).toNat))
      (withCrc [0, 0, 0]) [0, 0, 0] up) ∧
    -- clause 2, crc
    ((fun (bytes : List Byte) (s : State) =>
      s.TakesIn s.chain.upPort ∧ SeqArrival.isWhole (.whole bytes) 4 = true ∧ (SeqArrival.data (.whole bytes) 4 = none ∨ 4 ≤ s.manil.tides.length))
      [0, 0, 0, 1] up) ∧
    -- clause 2, full
    ((fun (bytes : List Byte) (s : State) =>
      s.TakesIn s.chain.upPort ∧ SeqArrival.isWhole (.whole bytes) 4 = true ∧ (SeqArrival.data (.whole bytes) 4 = none ∨ 4 ≤ s.manil.tides.length) ∧ SeqArrival.data (.whole bytes) 4 ≠ none)
      (withCrc [0x20, 0x4E, 0x10]) { up with manil := { tides := List.replicate 4 { seq := 0, due := .atTime 5000000, writes := [] } } }) ∧
    -- clause 3
    ((fun (_ : List Byte) (s : State) =>
      s.TakesIn s.chain.upPort)
      [1] up) := by
  refine ⟨?_, ?_, ?_, ?_, ?_⟩ <;> dsimp only <;> repeat' (first | refine And.intro ?_ ?_ | decide +kernel | constructor)

theorem witness_TideAppliesItsWrites :
    -- clause 1
    ((fun (x : PendingTide) (rest : List PendingTide) (s : State) =>
      s.coreUp = true ∧ RegFile.wf s.regs = true ∧ s.manil.tides = x :: rest ∧ s.tideDue = true)
      { seq := 0, due := .atTime 1000000, writes := [(0x0802, 5)] } [] { up with manil := { tides := [{ seq := 0, due := .atTime 1000000, writes := [(0x0802, 5)] }] } }) ∧
    -- clause 1, late
    ((fun (x : PendingTide) (rest : List PendingTide) (s : State) =>
      s.coreUp = true ∧ RegFile.wf s.regs = true ∧ s.manil.tides = x :: rest ∧ s.tideDue = true)
      { seq := 0, due := .late 2000000 5, writes := [(BitVec.ofNat 16 (Reg.sfpCfg 1), 0x642)] } [] { up with manil := { tides := [{ seq := 0, due := .late 2000000 5, writes := [(BitVec.ofNat 16 (Reg.sfpCfg 1), 0x642)] }] } }) := by
  refine ⟨?_, ?_⟩ <;> dsimp only <;> repeat' (first | refine And.intro ?_ ?_ | decide +kernel | constructor)

theorem witness_EnumerationMeasuresAndNumbers :
    -- clause 1
    ((fun (bytes data : List Byte) (s : State) =>
      s.TakesIn s.chain.upPort ∧ SeqArrival.data (.whole bytes) 7 = some data ∧ s.chain.enumDue = none)
      (withCrc [1, 0, 0, 0, 0, 0]) [1, 0, 0, 0, 0, 0] up) ∧
    -- clause 2
    ((fun (_ : Bool) (rt : Nat) (s : State) =>
      s.TakesIn s.downPort ∧ s.chain.enumDue.isSome = true ∧ s.clocks.rate ≠ 0 ∧ s.fwdDelay ≤ rt ∧ (rt - s.fwdDelay) * 1000 ≤ 400 * 4096)
      false (up.fwdDelay + 1638) { up with chain := { up.chain with enumDue := some 2020000 } }) ∧
    -- clause 3, 7
    ((fun (due : Nat) (s : State) =>
      s.chain.enumDue = some due ∧ due ≤ s.clk)
      2000000 { up with chain := { up.chain with enumDue := some 2000000, echoes := 7, echoSum := 4000 } }) ∧
    -- clause 3, 8
    ((fun (due : Nat) (s : State) =>
      s.chain.enumDue = some due ∧ due ≤ s.clk)
      2000000 { up with chain := { up.chain with enumDue := some 2000000, echoes := 8, echoSum := 4000 } }) ∧
    -- clause 4, assign
    ((fun (bytes data : List Byte) (s : State) =>
      s.TakesIn s.chain.upPort ∧ SeqArrival.data (.whole bytes) 7 = some data ∧ (data.getD 0 0).toNat.testBit 7 = false ∧ (data.getD 0 0).toNat % 4 = 2 ∧ s.unit.st.armed = false ∧ (data.getD 1 0).toNat < 128 ∧ (data.getD 0 0).toNat.testBit 6 = false)
      (withCrc [2, 127, 9, 0, 0, 0]) [2, 127, 9, 0, 0, 0] up) ∧
    -- clause 4, unpinned
    ((fun (bytes data : List Byte) (s : State) =>
      s.TakesIn s.chain.upPort ∧ SeqArrival.data (.whole bytes) 7 = some data ∧ (data.getD 0 0).toNat.testBit 7 = false ∧ (data.getD 0 0).toNat % 4 = 2 ∧ s.unit.st.armed = false ∧ (data.getD 0 0).toNat.testBit 6 = true ∧ s.regN Reg.chnPin = 0)
      (withCrc [66, 0, 9, 0, 0, 0]) [66, 0, 9, 0, 0, 0] up) ∧
    -- clause 4, overflow
    ((fun (bytes data : List Byte) (s : State) =>
      s.TakesIn s.chain.upPort ∧ SeqArrival.data (.whole bytes) 7 = some data ∧ (data.getD 0 0).toNat.testBit 7 = false ∧ (data.getD 0 0).toNat % 4 = 2 ∧ s.unit.st.armed = false ∧ 128 ≤ (data.getD 1 0).toNat)
      (withCrc [2, 128, 9, 0, 0, 0]) [2, 128, 9, 0, 0, 0] up) ∧
    -- clause 4, kept
    ((fun (bytes data : List Byte) (s : State) =>
      s.TakesIn s.chain.upPort ∧ SeqArrival.data (.whole bytes) 7 = some data ∧ (data.getD 0 0).toNat.testBit 7 = false ∧ (data.getD 0 0).toNat % 4 = 2 ∧ s.unit.st.armed = true)
      (withCrc [2, 5, 9, 0, 0, 0]) [2, 5, 9, 0, 0, 0] (upIn .ready)) ∧
    -- clause 4, pinned
    ((fun (bytes data : List Byte) (s : State) =>
      s.TakesIn s.chain.upPort ∧ SeqArrival.data (.whole bytes) 7 = some data ∧ (data.getD 0 0).toNat.testBit 7 = false ∧ (data.getD 0 0).toNat % 4 = 2 ∧ s.unit.st.armed = false ∧ (data.getD 0 0).toNat.testBit 6 = true ∧ (data.getD 1 0).toNat < s.regN Reg.chnPin)
      (withCrc [66, 4, 9, 0, 0, 0]) [66, 4, 9, 0, 0, 0] (upWith [(Reg.chnPin, 5)])) ∧
    -- clause 4, pinfail
    ((fun (bytes data : List Byte) (s : State) =>
      s.TakesIn s.chain.upPort ∧ SeqArrival.data (.whole bytes) 7 = some data ∧ (data.getD 0 0).toNat.testBit 7 = false ∧ (data.getD 0 0).toNat % 4 = 2 ∧ s.unit.st.armed = false ∧ (data.getD 0 0).toNat.testBit 6 = true ∧ s.regN Reg.chnPin ≠ 0 ∧ s.regN Reg.chnPin ≤ (data.getD 1 0).toNat)
      (withCrc [66, 5, 9, 0, 0, 0]) [66, 5, 9, 0, 0, 0] (upWith [(Reg.chnPin, 5)])) ∧
    -- clause 4, hop_127
    ((fun (bytes data : List Byte) (s : State) =>
      s.TakesIn s.chain.upPort ∧ SeqArrival.data (.whole bytes) 7 = some data ∧ (data.getD 0 0).toNat.testBit 7 = false ∧ (data.getD 0 0).toNat % 4 = 3)
      (withCrc [3, 127, 9, 0, 0, 0]) [3, 127, 9, 0, 0, 0] up) ∧
    -- clause 4, hop_128
    ((fun (bytes data : List Byte) (s : State) =>
      s.TakesIn s.chain.upPort ∧ SeqArrival.data (.whole bytes) 7 = some data ∧ (data.getD 0 0).toNat.testBit 7 = false ∧ (data.getD 0 0).toNat % 4 = 3)
      (withCrc [3, 128, 9, 0, 0, 0]) [3, 128, 9, 0, 0, 0] up) ∧
    -- clause 5
    ((fun (bytes data : List Byte) (s : State) =>
      s.TakesIn s.chain.upPort ∧ SeqArrival.data (.whole bytes) 7 = some data ∧ (data.getD 0 0).toNat.testBit 7 = true)
      (withCrc [130, 3, 9, 0, 0, 0]) [130, 3, 9, 0, 0, 0] up) := by
  refine ⟨?_, ?_, ?_, ?_, ?_, ?_, ?_, ?_, ?_, ?_, ?_, ?_, ?_⟩ <;> dsimp only <;> repeat' (first | refine And.intro ?_ ?_ | decide +kernel | constructor)

theorem witness_TurnsFollowSweeps :
    -- clause 1, bow
    ((fun (bytes data : List Byte) (s : State) =>
      s.TakesIn s.downPort ∧ s.farHelmAt s.downPort = false ∧ SeqArrival.data (.whole bytes) 7 = some data ∧ s.chain.upPort = .bow)
      (withCrc [1, 2, 0, 0, 0, 1]) [1, 2, 0, 0, 0, 1] up) ∧
    -- clause 1, stern
    ((fun (bytes data : List Byte) (s : State) =>
      s.TakesIn s.downPort ∧ s.farHelmAt s.downPort = false ∧ SeqArrival.data (.whole bytes) 7 = some data ∧ s.chain.upPort = .stern)
      (withCrc [1, 2, 0, 0, 0, 1]) [1, 2, 0, 0, 0, 1] { up with chain := { up.chain with upPort := .stern } }) ∧
    -- clause 2
    ((fun (bytes data : List Byte) (x : Sweep) (s : State) =>
      s.TakesIn s.downPort ∧ s.farHelmAt s.downPort = false ∧ SeqArrival.data (.whole bytes) 7 = some data ∧ s.chain.outstanding.find? (fun y => decide (y.crc = data.getD 2 0 ∧ y.seq = data.getD 3 0) && !y.isEnum) = some x)
      (withCrc [2, 2, 7, 1, 0, 0]) [2, 2, 7, 1, 0, 0] { crc := 7, seq := 1 } { up with chain := { up.chain with outstanding := [{ crc := 7, seq := 1 }] } }) ∧
    -- clause 3
    ((fun (bytes : List Byte) (s : State) =>
      s.TakesIn s.downPort ∧ s.farHelmAt s.downPort = false ∧ SeqArrival.isWhole (.whole bytes) 7 = true ∧ SeqArrival.data (.whole bytes) 7 = none)
      [1, 2, 0, 0, 0, 1, 0] up) ∧
    -- clause 5
    ((fun (d : TurnDue) (s : State) =>
      s.onChain = true ∧ s.turnDue = some d)
      { crc := 7, seq := 1, due := 2000000 } { up with chain := { up.chain with turnsDue := [{ crc := 7, seq := 1, due := 2000000 }] } }) ∧
    -- clause 6
    ((fun (_ : SeqArrival) (s : State) =>
      s.TakesIn s.downPort ∧ s.farHelmAt s.downPort = true)
      (.cut []) { up with chain := { up.chain with farHelm := true, farPort := .stern } }) ∧
    -- clause 7, plain
    ((fun (s : State) (_ _ : Byte) =>
      (s.chain.dnLink = true ∨ s.chain.freeEnd = true))
      up 7 1) ∧
    -- clause 7, break
    ((fun (s : State) (_ _ : Byte) =>
      s.chain.dnLink = false ∧ s.chain.freeEnd = false)
      { up with chain := { up.chain with dnLink := false } } 7 1) ∧
    -- clause 8
    ((fun (s : State) =>
      s.onChain = true ∧ s.chain.dnLink = true)
      up) ∧
    -- clause 9
    ((fun (s : State) =>
      s.onChain = true ∧ s.chain.dnLink = false)
      { up with chain := { up.chain with dnLink := false } }) ∧
    -- clause 4
    ((fun (_ : List ChainChar) (crc seq : Byte) (brk : Bool) (rest : List UpItem) (s : State) =>
      s.onChain = true ∧ s.upGap = true ∧ s.chain.enumDue = none ∧ s.chain.upQ = s.chain.turnOf crc seq brk :: rest)
      [] 7 1 false [] { up with chain := { up.chain with upQ := [up.chain.turnOf 7 1 false], outstanding := [{ crc := 7, seq := 1, own := true }] } }) ∧
    -- clause 8, several
    ((fun (s : State) =>
      s.onChain = true ∧ s.chain.dnLink = true)
      { up with chain := { up.chain with outstanding := [{ crc := 0, seq := 1, isEnum := true }, { crc := 7, seq := 2 }, { crc := 9, seq := 3, own := true }] } }) := by
  refine ⟨?_, ?_, ?_, ?_, ?_, ?_, ?_, ?_, ?_, ?_, ?_, ?_⟩ <;> dsimp only <;> repeat' (first | refine And.intro ?_ ?_ | decide +kernel | constructor)

theorem witness_HelmSwapsTurnTheChain :
    -- clause 1, free
    ((fun (p e : Port) (bytes data : List Byte) (s : State) =>
      s.TakesIn p ∧ SeqArrival.data (.whole bytes) 2 = some data ∧ helmEnd (data.getD 0 0) = some e ∧ s.chain.helmReq = none ∧ e = p)
      .bow .bow (withCrc [0]) [0] up) ∧
    -- clause 1, denied
    ((fun (p e : Port) (bytes data : List Byte) (s : State) =>
      s.TakesIn p ∧ SeqArrival.data (.whole bytes) 2 = some data ∧ helmEnd (data.getD 0 0) = some e ∧ s.chain.helmReq = none ∧ s.chain.dnLink = false ∧ s.chain.farHelm = false ∧ p = s.chain.upPort ∧ e = p.other)
      .bow .stern (withCrc [1]) [1] { up with chain := { up.chain with dnLink := false } }) ∧
    -- clause 1, same
    ((fun (p e : Port) (bytes data : List Byte) (s : State) =>
      s.TakesIn p ∧ SeqArrival.data (.whole bytes) 2 = some data ∧ helmEnd (data.getD 0 0) = some e ∧ s.chain.helmReq.any (fun r => decide (r.arrived ≠ p) && decide (r.target = e)) = true)
      .bow .stern (withCrc [1]) [1] { up with chain := { up.chain with helmReq := some { target := .stern, arrived := .stern, due := 2000000 } } }) ∧
    -- clause 1, wins
    ((fun (p e : Port) (bytes data : List Byte) (s : State) =>
      s.TakesIn p ∧ SeqArrival.data (.whole bytes) 2 = some data ∧ helmEnd (data.getD 0 0) = some e ∧ s.chain.helmReq.any (fun r => decide (r.arrived ≠ p) && decide (r.target ≠ e)) = true ∧ p = .bow)
      .bow .stern (withCrc [1]) [1] { up with chain := { up.chain with helmReq := some { target := .bow, arrived := .stern, due := 2000000 } } }) ∧
    -- clause 1, loses
    ((fun (p e : Port) (bytes data : List Byte) (s : State) =>
      s.TakesIn p ∧ SeqArrival.data (.whole bytes) 2 = some data ∧ helmEnd (data.getD 0 0) = some e ∧ s.chain.helmReq.any (fun r => decide (r.arrived ≠ p) && decide (r.target ≠ e)) = true ∧ p = .stern)
      .stern .bow (withCrc [0]) [0] { up with chain := { up.chain with helmReq := some { target := .stern, arrived := .bow, due := 2000000 } } }) ∧
    -- clause 2
    ((fun (p e : Port) (bytes data : List Byte) (s : State) =>
      s.TakesIn p ∧ SeqArrival.data (.whole bytes) 2 = some data ∧ helmEnd (data.getD 0 0) = some e)
      .bow .bow (withCrc [0]) [0] up) ∧
    -- clause 3
    ((fun (p e : Port) (bytes data : List Byte) (s : State) =>
      s.TakesIn p ∧ SeqArrival.data (.whole bytes) 2 = some data ∧ helmEnd (data.getD 0 0) = some e)
      .stern .stern (withCrc [1]) [1] up) ∧
    -- clause 4
    ((fun (r : HelmReq) (s : State) =>
      s.chain.helmReq = some r ∧ r.due ≤ s.clk)
      { target := .stern, arrived := .bow, due := 2000000 } { up with chain := { up.chain with helmReq := some { target := .stern, arrived := .bow, due := 2000000 } } }) ∧
    -- clause 5
    ((fun (s : State) =>
      s.coreUp = true ∧ s.chain.released = false ∧ s.unit.st ≠ .underway ∧ s.clocks.mode ≠ .unset)
      up) ∧
    -- clause 5, unset
    ((fun (s : State) =>
      s.coreUp = true ∧ s.chain.released = false ∧ s.unit.st ≠ .underway ∧ s.clocks.mode = .unset)
      { up with clocks := { up.clocks with mode := .unset } }) ∧
    -- clause 6
    ((fun (s : State) =>
      s.coreUp = true ∧ s.chain.released = false ∧ s.unit.st = .underway ∧ s.Calm)
      (upIn .underway)) ∧
    -- clause 7, both
    ((fun (bow stern : Bool) (s : State) =>
      s.coreUp = true ∧ s.chain.released = true ∧ (bow || stern) = true)
      true true { up with chain := { up.chain with released := true } }) ∧
    -- clause 7, held
    ((fun (bow stern : Bool) (s : State) =>
      s.coreUp = true ∧ s.chain.released = true ∧ (bow || stern) = true ∧ s.chain.swapHold = true)
      false true { up with chain := { up.chain with released := true, swapHold := true } }) := by
  refine ⟨?_, ?_, ?_, ?_, ?_, ?_, ?_, ?_, ?_, ?_, ?_, ?_, ?_⟩ <;> dsimp only <;> repeat' (first | refine And.intro ?_ ?_ | decide +kernel | constructor)

theorem witness_ReferencesAndOscillators :
    -- clause 1
    ((fun (code : Fin 16) (s : State) =>
      s.coreUp = true ∧ s.chain.released = false ∧ s.clocks.rate = 0 ∧ code ≠ 0)
      15 { up with clocks := { up.clocks with rate := 0, mode := .holdover } }) ∧
    -- clause 3
    ((fun (s : State) =>
      s.coreUp = true ∧ s.clocks.rate ≠ 0)
      up) ∧
    -- clause 4, track
    ((fun (s : State) =>
      s.coreUp = true ∧ s.clocks.lock = false ∧ s.clocks.ref = .ck ∧ s.clocks.mode = .coast)
      { up with clocks := { up.clocks with lock := false, mode := .coast } }) ∧
    -- clause 4, unset
    ((fun (s : State) =>
      s.coreUp = true ∧ s.clocks.lock = false)
      { up with clocks := { up.clocks with lock := false, mode := .unset } }) ∧
    -- clause 5
    ((fun (s : State) =>
      s.coreUp = true ∧ s.clocks.xoStable = false)
      { up with clocks := { ref := .irc } }) ∧
    -- clause 6
    ((fun (s : State) =>
      s.coreUp = true ∧ s.clocks.xoStable = true)
      up) ∧
    -- clause 7
    ((fun (s : State) =>
      s.coreUp = true ∧ s.clocks.ircOk = true ∧ (s.clocks.lxoOk = true ∨ s.clocks.xoStable = true))
      up) ∧
    -- clause 8
    ((fun (s : State) =>
      s.coreUp = true ∧ s.clocks.ircOk = false ∧ (s.clocks.lxoOk = true ∨ s.clocks.xoStable = true))
      { up with clocks := { up.clocks with ircOk := false } }) ∧
    -- clause 9
    ((fun (s : State) =>
      s.coreUp = true ∧ s.clocks.lxoOk = true ∧ s.clocks.ircOk = true)
      up) ∧
    -- clause 10
    ((fun (s : State) =>
      s.coreUp = true ∧ s.clocks.lxoOk = false ∧ s.clocks.ircOk = true)
      { up with clocks := { up.clocks with lxoOk := false } }) ∧
    -- clause 11
    ((fun (s : State) =>
      s.phase = .anchored ∧ s.clocks.lxoOk = true)
      { phase := .anchored }) ∧
    -- clause 2
    ((fun (s : State) =>
      s.coreUp = true ∧ s.chain.released = false ∧ s.clocks.rate = 0)
      { up with clocks := { up.clocks with rate := 0 } }) := by
  refine ⟨?_, ?_, ?_, ?_, ?_, ?_, ?_, ?_, ?_, ?_, ?_, ?_⟩ <;> dsimp only <;> repeat' (first | refine And.intro ?_ ?_ | decide +kernel | constructor)

theorem witness_ChainTimeRuns :
    -- clause 1
    ((fun (s : State) =>
      s.coreUp = true ∧ s.clocks.wrapDue = false ∧ s.time = BitVec.allOnes 48)
      { up with time := BitVec.allOnes 48 }) ∧
    -- clause 2
    ((fun (s : State) =>
      s.coreUp = true ∧ s.clocks.wrapDue = true)
      { up with clocks := { up.clocks with wrapDue := true } }) ∧
    -- clause 3
    ((fun (s : State) =>
      s.coreUp = true ∧ s.time ≠ BitVec.allOnes 48)
      { up with time := BitVec.ofNat 48 (2 ^ 48 - 2) }) ∧
    -- clause 3, coast
    ((fun (s : State) =>
      s.coreUp = true ∧ s.time ≠ BitVec.allOnes 48 ∧ s.clocks.mode = .coast)
      { up with clocks := { up.clocks with mode := .coast } }) ∧
    -- clause 3, holdover
    ((fun (s : State) =>
      s.coreUp = true ∧ s.time ≠ BitVec.allOnes 48 ∧ s.clocks.mode = .holdover)
      { up with clocks := { up.clocks with mode := .holdover } }) ∧
    -- clause 3, tracked
    ((fun (s : State) =>
      s.coreUp = true ∧ s.time ≠ BitVec.allOnes 48 ∧ s.clocks.mode = .holdover ∧ s.clocks.holdIrc = false ∧ 60000000 ≤ s.clocks.trackUs)
      { up with clocks := { up.clocks with mode := .holdover, trackUs := 60000000, xoStable := true } }) := by
  refine ⟨?_, ?_, ?_, ?_, ?_, ?_⟩ <;> dsimp only <;> repeat' (first | refine And.intro ?_ ?_ | decide +kernel | constructor)

theorem witness_TimeSequencesAreLoaded :
    -- clause 1, set
    ((fun (bytes data : List Byte) (_ : Byte) (s : State) =>
      s.TakesIn s.chain.upPort ∧ SeqArrival.data (.whole bytes) 9 = some data ∧ leNat (data.drop 7) = s.clocks.rate.val ∧ s.clocks.ref = .ck ∧ s.clocks.lock = true ∧ s.hopValid = true ∧ s.clocks.mode ≠ .unset)
      (withCrc [0, 0x40, 0x42, 0x0F, 0, 0, 0, 1]) [0, 0x40, 0x42, 0x0F, 0, 0, 0, 1] 0 up) ∧
    -- clause 1, step
    ((fun (bytes data : List Byte) (sub : Byte) (s : State) =>
      s.TakesIn s.chain.upPort ∧ SeqArrival.data (.whole bytes) 9 = some data ∧ leNat (data.drop 7) = s.clocks.rate.val ∧ s.clocks.ref = .ck ∧ s.clocks.lock = true ∧ s.hopValid = true ∧ s.clocks.mode ≠ .unset ∧ (8192 < (signedDiff (leNat (data.take 7) * 16 + s.chain.hop + ckCycles 90 s.clocks.rate.val - 16 * sub.toNat) (roundDiv s.heldTime 390625)).natAbs))
      (withCrc [0, 0, 0, 0x10, 0, 0, 0, 1]) [0, 0, 0, 0x10, 0, 0, 0, 1] 0 up) ∧
    -- clause 1, unset
    ((fun (bytes data : List Byte) (_ : Byte) (s : State) =>
      s.TakesIn s.chain.upPort ∧ SeqArrival.data (.whole bytes) 9 = some data ∧ leNat (data.drop 7) = s.clocks.rate.val ∧ s.clocks.ref = .ck ∧ s.clocks.lock = true ∧ s.hopValid = true ∧ s.clocks.mode = .unset)
      (withCrc [0, 0, 0, 0x10, 0, 0, 0, 1]) [0, 0, 0, 0x10, 0, 0, 0, 1] 255 { up with clocks := { up.clocks with mode := .unset } }) ∧
    -- clause 2
    ((fun (bytes data : List Byte) (_ : Byte) (s : State) =>
      s.TakesIn s.chain.upPort ∧ SeqArrival.data (.whole bytes) 9 = some data ∧ leNat (data.drop 7) ≠ s.clocks.rate.val)
      (withCrc [0, 0, 0, 0x10, 0, 0, 0, 2]) [0, 0, 0, 0x10, 0, 0, 0, 2] 0 up) ∧
    -- clause 5
    ((fun (_ : List Byte) (_ : Byte) (s : State) =>
      s.TakesIn s.chain.upPort)
      [1] 0 up) ∧
    -- clause 3, ref
    ((fun (bytes data : List Byte) (_ : Byte) (s : State) =>
      s.TakesIn s.chain.upPort ∧ SeqArrival.data (.whole bytes) 9 = some data ∧ leNat (data.drop 7) = s.clocks.rate.val ∧ (s.clocks.ref ≠ .ck ∨ s.clocks.lock = false ∨ s.hopValid = false) ∧ s.clocks.ref ≠ .ck)
      (withCrc [0, 0, 0, 0x10, 0, 0, 0, 1]) [0, 0, 0, 0x10, 0, 0, 0, 1] 0 { up with clocks := { up.clocks with ref := .xo } }) ∧
    -- clause 3, lock
    ((fun (bytes data : List Byte) (_ : Byte) (s : State) =>
      s.TakesIn s.chain.upPort ∧ SeqArrival.data (.whole bytes) 9 = some data ∧ leNat (data.drop 7) = s.clocks.rate.val ∧ (s.clocks.ref ≠ .ck ∨ s.clocks.lock = false ∨ s.hopValid = false) ∧ s.clocks.lock = false)
      (withCrc [0, 0, 0, 0x10, 0, 0, 0, 1]) [0, 0, 0, 0x10, 0, 0, 0, 1] 0 { up with clocks := { up.clocks with lock := false } }) ∧
    -- clause 3, hop
    ((fun (bytes data : List Byte) (_ : Byte) (s : State) =>
      s.TakesIn s.chain.upPort ∧ SeqArrival.data (.whole bytes) 9 = some data ∧ leNat (data.drop 7) = s.clocks.rate.val ∧ (s.clocks.ref ≠ .ck ∨ s.clocks.lock = false ∨ s.hopValid = false) ∧ s.hopValid = false)
      (withCrc [0, 0, 0, 0x10, 0, 0, 0, 1]) [0, 0, 0, 0x10, 0, 0, 0, 1] 0 { up with chain := { up.chain with hopBValid := false } }) ∧
    -- clause 4
    ((fun (bytes : List Byte) (_ : Byte) (s : State) =>
      s.TakesIn s.chain.upPort ∧ SeqArrival.isWhole (.whole bytes) 9 = true ∧ SeqArrival.data (.whole bytes) 9 = none)
      [0, 0, 0, 0x10, 0, 0, 0, 1, 9] 0 up) := by
  refine ⟨?_, ?_, ?_, ?_, ?_, ?_, ?_, ?_, ?_⟩ <;> dsimp only <;> repeat' (first | refine And.intro ?_ ?_ | decide +kernel | constructor)

theorem witness_ResetsAreAsserted :
    -- clause 2
    ((fun (s : State) =>
      s.phase = .running ∧ s.rst.halted = false ∧ s.domainOn 112 = true ∧ s.unit.st = .moored)
      up) ∧
    -- clause 2, software
    ((fun (s : State) =>
      s.phase = .running ∧ s.rst.soft = some { reach := 1, delay := 0, unsent := false, due := some 2000000 })
      { up with rst := { up.rst with soft := some { reach := 1, delay := 0, unsent := false, due := some 2000000 } } }) ∧
    -- clause 2, clocks
    ((fun (s : State) =>
      s.phase = .running ∧ s.clocks.ircOk = false ∧ s.clocks.xoStable = false)
      { up with clocks := { up.clocks with ircOk := false, xoStable := false } }) ∧
    -- clause 3
    ((fun (s : State) =>
      s.phase = .inReset ∧ s.rst.holdUntil ≤ s.clk ∧ s.clockFailed = false)
      { up with phase := .inReset, rst := { cause := 5, level := 2, fused := some 0x3FFFFF, holdUntil := 2000000 } }) := by
  refine ⟨?_, ?_, ?_, ?_⟩ <;> dsimp only <;> repeat' (first | refine And.intro ?_ ?_ | decide +kernel | constructor)

theorem witness_PinPulsesResetOrDoNothing :
    -- clause 1, short
    ((fun (ns : Nat) (_ : State) =>
      ns < 1000)
      999 up) ∧
    -- clause 1, between
    ((fun (ns : Nat) (s : State) =>
      ns < 5000 ∧ s.takesFirst 5 (s.reachOf 5) = true)
      1000 up) ∧
    -- clause 1, long
    ((fun (ns : Nat) (s : State) =>
      5000 ≤ ns ∧ s.takesFirst 5 (s.reachOf 5) = true)
      5000 up) := by
  refine ⟨?_, ?_, ?_⟩ <;> dsimp only <;> repeat' (first | refine And.intro ?_ ?_ | decide +kernel | constructor)

theorem witness_ReachLevelsClearWhatTheyList :
    -- clause 2, low
    ((fun (level : Nat) (_ : State) =>
      2 ≤ level ∧ level ≤ 4)
      2 up) ∧
    -- clause 2, high
    ((fun (level : Nat) (_ : State) =>
      2 ≤ level ∧ level ≤ 4)
      4 up) := by
  refine ⟨?_, ?_⟩ <;> dsimp only <;> repeat' (first | refine And.intro ?_ ?_ | decide +kernel | constructor)

theorem witness_PowerUpLeadsToARunningUnit :
    -- clause 1
    ((fun (_ : Fin 16) (_ : Option Word) (_ : Bool) (s : State) =>
      s.phase = .powerUp ∧ s.power.downUntil ≤ s.clk ∧ s.rst.activeUntil ≤ s.clk ∧ s.rst.fromReset = true)
      15 none false State.reset) ∧
    -- clause 2
    ((fun (_ : Fin 16) (_ : Option Word) (s : State) =>
      s.phase = .powerUp ∧ s.power.downUntil ≤ s.clk ∧ s.rst.activeUntil ≤ s.clk ∧ s.rst.fromReset = false ∧ s.power.pinToo = false ∧ s.power.wake = .bow)
      15 none { up with phase := .powerUp, power := { wake := .bow } }) ∧
    -- clause 3
    ((fun (_ : Fin 16) (_ : Option Word) (s : State) =>
      s.phase = .powerUp ∧ s.power.downUntil ≤ s.clk ∧ s.rst.activeUntil ≤ s.clk ∧ s.rst.fromReset = false)
      15 none { up with phase := .powerUp, power := { wake := .bow } }) ∧
    -- clause 4
    ((fun (_ : Fin 16) (_ : Option Word) (_ : Bool) (s : State) =>
      s.phase = .powerUp ∧ (s.clk < s.power.downUntil ∨ s.clk < s.rst.activeUntil) ∧ s.clk < s.rst.activeUntil)
      15 none true { up with phase := .powerUp, rst := { activeUntil := 2000001 } }) ∧
    -- clause 5, run
    ((fun (s : State) =>
      s.phase = .boot ∧ s.rst.coldBoot = false ∧ s.boot.selfTest = none ∧ s.unit.safe = 0 ∧ s.power.handover = none ∧ s.unit.limitAction = false ∧ (∀ p : Fin 4, s.pairFunc p = .generic) ∧ (∀ g : Fin 3, bit (s.reg Reg.fltCfg) g.val = false) ∧ s.rst.fromReset = true ∧ s.rst.coldBoot = false ∧ s.bootChoice = .run .pa .la false)
      { upWith [(Reg.fltCfg, 0)] with phase := .boot, rst := { coldBoot := false }, boot := { slots := #v[{ st := .valid, ifl := 1, tested := [(0x11, 1)] }, {}, { st := .valid, ifl := 1, tested := [(0x11, 1)] }, {}] } }) ∧
    -- clause 5, dock
    ((fun (s : State) =>
      s.phase = .boot ∧ s.rst.coldBoot = false ∧ s.boot.selfTest = none ∧ s.unit.safe = 0 ∧ s.power.handover = none ∧ s.unit.limitAction = false ∧ (∀ p : Fin 4, s.pairFunc p = .generic) ∧ (∀ g : Fin 3, bit (s.reg Reg.fltCfg) g.val = false) ∧ s.rst.fromReset = true ∧ s.rst.coldBoot = false ∧ s.bootChoice = .dock 2)
      { upWith [(Reg.fltCfg, 0)] with phase := .boot, rst := { coldBoot := false } }) ∧
    -- clause 6, run
    ((fun (s : State) =>
      s.phase = .boot ∧ s.rst.coldBoot = true ∧ RegFile.wf s.regs = true ∧ s.boot.selfTest = none ∧ s.unit.safe = 0 ∧ s.power.handover = none ∧ s.unit.limitAction = false ∧ (∀ p : Fin 4, s.pairFunc p = .generic) ∧ (∀ g : Fin 3, bit (s.reg Reg.fltCfg) g.val = false) ∧ s.nvm.saved = [(0x0802, 8)] ∧ s.bootChoice = .run .pa .la false)
      { upWith [(Reg.fltCfg, 0)] with phase := .boot, rst := { coldBoot := true }, nvm := { saved := [(0x0802, 8)] }, boot := { slots := #v[{ st := .valid, ifl := 1, tested := [(0x11, 1)] }, {}, { st := .valid, ifl := 1, tested := [(0x11, 1)] }, {}] } }) ∧
    -- clause 6, dock
    ((fun (s : State) =>
      s.phase = .boot ∧ s.rst.coldBoot = true ∧ RegFile.wf s.regs = true ∧ s.boot.selfTest = none ∧ s.unit.safe = 0 ∧ s.power.handover = none ∧ s.unit.limitAction = false ∧ (∀ p : Fin 4, s.pairFunc p = .generic) ∧ (∀ g : Fin 3, bit (s.reg Reg.fltCfg) g.val = false) ∧ s.nvm.saved = [(0x0802, 8)] ∧ s.bootChoice = .dock 2)
      { upWith [(Reg.fltCfg, 0)] with phase := .boot, rst := { coldBoot := true }, nvm := { saved := [(0x0802, 8)] } }) := by
  refine ⟨?_, ?_, ?_, ?_, ?_, ?_, ?_, ?_⟩ <;> dsimp only <;> repeat' (first | refine And.intro ?_ ?_ | decide +kernel | constructor)

theorem witness_AnchoringAndWaking :
    -- clause 1
    ((fun (due : Nat) (s : State) =>
      s.phase = .running ∧ s.power.anchorDue = some due ∧ due ≤ s.clk)
      2000000 { up with power := { up.power with anchorDue := some 2000000 } }) ∧
    -- clause 2
    ((fun (p : Port) (s : State) =>
      s.phase = .anchored ∧ s.power.wakeArmed.getLsbD p.code = true ∧ s.clk < s.power.downUntil)
      .stern { State.reset with phase := .anchored, clk := 10, power := { wakeArmed := 7, downUntil := 11 } }) ∧
    -- clause 3
    ((fun (s : State) =>
      s.phase = .anchored ∧ s.power.wakeArmed.getLsbD 2 = true)
      { State.reset with phase := .anchored, clk := 10, power := { wakeArmed := 7, downUntil := 11 } }) := by
  refine ⟨?_, ?_, ?_⟩ <;> dsimp only <;> repeat' (first | refine And.intro ?_ ?_ | decide +kernel | constructor)

theorem witness_SuppliesAreWatched :
    -- clause 1, good
    ((fun (vbat vhld : Nat) (s : State) =>
      s.regN Reg.vbatLow + 11 ≤ vbat ∧ s.Calm ∧ 92 * s.regN Reg.hldV ≤ 100 * vhld)
      (up.regN Reg.vbatLow + 11) 200 up) ∧
    -- clause 1, low
    ((fun (vbat vhld : Nat) (s : State) =>
      s.regN Reg.vbatLow + 11 ≤ vbat ∧ s.Calm ∧ 100 * vhld < 83 * s.regN Reg.hldV)
      (up.regN Reg.vbatLow + 11) 10 up) ∧
    -- clause 2
    ((fun (vbat : Nat) (s : State) =>
      s.regN Reg.vbatLow + 11 ≤ vbat ∧ s.power.vbatGood = false ∧ s.power.handover.isSome = true)
      (up.regN Reg.vbatLow + 11) { up with power := { up.power with vbatGood := false, handover := some { hoAct := 0, hoTime := 5, started := 1999200, inDrydock := false } } }) ∧
    -- clause 3
    ((fun (vbat : Nat) (s : State) =>
      s.regN Reg.vbatLow + 11 ≤ vbat ∧ s.power.vbatGood = false ∧ s.Calm ∧ s.power.returnArmed = true)
      (up.regN Reg.vbatLow + 11) { up with power := { up.power with vbatGood := false, returnArmed := true } }) ∧
    -- clause 4, good
    ((fun (vbat : Nat) (s : State) =>
      (s.power.vbatGood = true ∨ vbat < s.regN Reg.vbatLow + 9) ∧ s.power.vbatGood = true)
      0 up) ∧
    -- clause 4, below
    ((fun (vbat : Nat) (s : State) =>
      (s.power.vbatGood = true ∨ vbat < s.regN Reg.vbatLow + 9) ∧ vbat < s.regN Reg.vbatLow + 9)
      (up.regN Reg.vbatLow + 8) { up with power := { up.power with vbatGood := false } }) ∧
    -- clause 5
    ((fun (vbat : Nat) (s : State) =>
      s.power.vbatOver = false ∧ 360 < vbat ∧ s.Calm)
      361 (upIn .ready)) ∧
    -- clause 6
    ((fun (vbat : Nat) (s : State) =>
      s.power.vbatHigh = true ∧ vbat < 347 ∧ s.Calm)
      346 { up with power := { up.power with vbatHigh := true } }) ∧
    -- clause 8
    ((fun (s : State) =>
      s.power.vgdLow = true)
      { upValve 0 { bridge := .running } with power := { up.power with vgdLow := true } }) ∧
    -- clause 10
    ((fun (s : State) =>
      s.coreUp = true ∧ s.power.switching ≠ [] ∧ s.power.groupDue ≤ s.clk ∧ (∀ d ∈ s.power.switching, d < 114) ∧ s.phase = .running)
      { up with power := { up.power with on := 0, switching := [0, 1, 2, 3, 4, 5, 6, 7, 113], groupDue := 2000000 } }) := by
  refine ⟨?_, ?_, ?_, ?_, ?_, ?_, ?_, ?_, ?_, ?_⟩ <;> dsimp only <;> repeat' (first | refine And.intro ?_ ?_ | decide +kernel | constructor)

theorem witness_HandoversEndInSafe :
    -- clause 1, low
    ((fun (vbat : Nat) (s : State) =>
      s.phase = .running ∧ (100 * vbat + 100 < 98 * s.regN Reg.vbatLow ∨ (s.lowDue = true ∧ vbat = s.power.vbat)) ∧ s.power.handover = none ∧ 100 * vbat + 100 < 98 * s.regN Reg.vbatLow)
      0 (upWith [(Reg.hldCfg, 0)] .underway)) ∧
    -- clause 1, due
    ((fun (vbat : Nat) (s : State) =>
      s.phase = .running ∧ (100 * vbat + 100 < 98 * s.regN Reg.vbatLow ∨ (s.lowDue = true ∧ vbat = s.power.vbat)) ∧ s.power.handover = none ∧ s.lowDue = true ∧ vbat = s.power.vbat)
      89 { up with power := { up.power with vbat := 89, lowSince := some 1999790 } }) ∧
    -- clause 2
    ((fun (_ : Nat) (s : State) =>
      s.handoverDue = true)
      0 { upIn .underway with power := { up.power with handover := some { hoAct := 0, hoTime := 5, started := 1999200, inDrydock := false } } }) ∧
    -- clause 3
    ((fun (_ : Nat) (h : Handover) (s : State) =>
      s.handoverDue = true ∧ s.power.handover = some h ∧ h.inDrydock = false ∧ bit (s.reg Reg.hldCfg) 0 = false ∧ (∀ v : Fin 8, (s.pwm.valves[v]).run = none ∧ (s.pwm.valves[v]).brakeUntil = none))
      0 { hoAct := 0, hoTime := 5, started := 1999200, inDrydock := false } { upWith [(Reg.hldCfg, 0)] .underway with power := { up.power with handover := some { hoAct := 0, hoTime := 5, started := 1999200, inDrydock := false } } }) ∧
    -- clause 4
    ((fun (vbat : Nat) (s : State) =>
      s.handoverDue = false ∧ (s.lowDue = false ∨ vbat ≠ s.power.vbat) ∧ 102 * s.regN Reg.vbatLow + 100 ≤ 100 * vbat ∧ s.lowDue = false)
      (up.regN Reg.vbatLow + 3) up) ∧
    -- clause 5, boot
    ((fun (vbat : Nat) (s : State) =>
      s.handoverDue = false ∧ 100 * vbat + 100 < 98 * s.regN Reg.vbatLow ∧ (s.phase ≠ .running ∨ s.power.handover.isSome = true))
      0 { up with phase := .boot }) ∧
    -- clause 5, again
    ((fun (vbat : Nat) (s : State) =>
      s.handoverDue = false ∧ 100 * vbat + 100 < 98 * s.regN Reg.vbatLow ∧ (s.phase ≠ .running ∨ s.power.handover.isSome = true) ∧ s.phase = .running)
      0 { up with power := { up.power with handover := some { hoAct := 0, hoTime := 5, started := 1999200, inDrydock := false, acting := true } } }) ∧
    -- clause 7
    ((fun (s : State) =>
      (∀ w : Fin 8, s.hoTimeUp w = false))
      up) ∧
    -- clause 8
    ((fun (s : State) =>
      (s.phase ≠ .running ∨ (∀ due ∈ s.power.returnAt, s.clk < due)))
      up) ∧
    -- clause 6
    ((fun (w : Fin 8) (s : State) =>
      s.hoTimeUp w = true)
      0 { upValve 0 { run := some { target := .closed, why := .limit, startClk := 0, timedEnd := none }, bridge := .running, demand := .run .closed .limit } with unit := { st := .stranded, limitAction := true }, regs := [(Reg.hoTime, 2000), (Reg.strSrc, 1), (Reg.mvCfg 0, 0x0400C1)], clk := 9000000 }) ∧
    -- clause 9
    ((fun (due : Nat) (s : State) =>
      s.phase = .running ∧ s.power.returnAt = some due ∧ due ≤ s.clk ∧ s.unit.st = .safe ∧ drop s.unit.safe 1 = 0 ∧ s.Calm)
      2000000 { up with power := { up.power with returnAt := some 2000000 }, unit := { st := .safe, safe := 2 } }) ∧
    -- clause 10
    ((fun (due : Nat) (s : State) =>
      s.phase = .running ∧ s.power.returnAt = some due ∧ due ≤ s.clk ∧ (drop s.unit.safe 1 ≠ 0 ∨ s.unit.st ≠ .safe))
      2000000 { up with power := { up.power with returnAt := some 2000000 }, unit := { st := .safe, safe := 6 } }) := by
  refine ⟨?_, ?_, ?_, ?_, ?_, ?_, ?_, ?_, ?_, ?_, ?_, ?_⟩ <;> dsimp only <;> repeat' (first | refine And.intro ?_ ?_ | decide +kernel | constructor)

theorem witness_PulseInputsCountAndMove :
    -- clause 1
    ((fun (n : Fin 8) (_ _ : Bool) (_ : ChainTime) (_ : Nat) (s : State) =>
      s.finBars n = true)
      0 true false 5 900 { upWith [(Reg.finCfg 0, 0xF0F)] with motion := { up.motion with fins := upd up.motion.fins 0 fun f => { f with edgeClk := some 2000000 } } }) ∧
    -- clause 2, rise
    ((fun (n : Fin 8) (level _ : Bool) (_ : ChainTime) (_ : Nat) (s : State) =>
      s.coreUp = true ∧ s.domainOn (72 + n.val) = true ∧ (s.motion.fins[n]).level ≠ level ∧ s.finBars n = false ∧ s.quad (evenOf n).val = false ∧ s.odoSource ≠ n.val + 1 ∧ fld (s.reg (Reg.finCfg n)) 12 2 = 0)
      0 true false 5 900 up) ∧
    -- clause 2, unselected
    ((fun (n : Fin 8) (level _ : Bool) (_ : ChainTime) (_ : Nat) (s : State) =>
      s.coreUp = true ∧ s.domainOn (72 + n.val) = true ∧ (s.motion.fins[n]).level ≠ level ∧ s.finBars n = false ∧ s.quad (evenOf n).val = false ∧ s.odoSource ≠ n.val + 1 ∧ fld (s.reg (Reg.finCfg n)) 12 2 = 1)
      7 true false 5 900 (upWith [(Reg.finCfg 7, 0x1000)])) ∧
    -- clause 3, even
    ((fun (n : Fin 8) (level : Bool) (_ : ChainTime) (_ : Nat) (s : State) =>
      s.coreUp = true ∧ s.domainOn (72 + n.val) = true ∧ (s.motion.fins[n]).level ≠ level ∧ s.finBars n = false ∧ s.quad (evenOf n).val = true ∧ s.odoSource ≠ (evenOf n).val + 1)
      0 true 5 900 (upWith [(Reg.finCfg 0, 0x8000)])) ∧
    -- clause 3, odd
    ((fun (n : Fin 8) (level : Bool) (_ : ChainTime) (_ : Nat) (s : State) =>
      s.coreUp = true ∧ s.domainOn (72 + n.val) = true ∧ (s.motion.fins[n]).level ≠ level ∧ s.finBars n = false ∧ s.quad (evenOf n).val = true ∧ s.odoSource ≠ (evenOf n).val + 1)
      1 true 5 900 (upWith [(Reg.finCfg 0, 0x8000)])) ∧
    -- clause 4
    ((fun (n : Fin 8) (level : Bool) (_ : ChainTime) (_ : Nat) (s : State) =>
      s.coreUp = true ∧ s.domainOn (72 + n.val) = true ∧ (s.motion.fins[n]).level ≠ level ∧ s.finBars n = false ∧ s.finBars (mateOf n) = false ∧ s.quad (evenOf n).val = true)
      1 true 5 900 (upWith [(Reg.finCfg 0, 0x8000)])) ∧
    -- clause 5
    ((fun (n : Fin 8) (s : State) =>
      s.coreUp = true ∧ s.domainOn (72 + n.val) = true ∧ (s.motion.fins[n]).stopped = false ∧ (s.motion.fins[n]).measured = true)
      3 { up with motion := { up.motion with fins := upd up.motion.fins 3 fun f => { f with stopped := false, measured := true } } }) ∧
    -- clause 6
    ((fun (n : Fin 8) (level _ : Bool) (_ : ChainTime) (_ : Nat) (s : State) =>
      s.coreUp = true ∧ s.domainOn (72 + n.val) = true ∧ s.domainOn 101 = true ∧ (s.motion.fins[n]).level ≠ level ∧ s.finBars n = false ∧ s.quad (evenOf n).val = false ∧ s.odoSource = n.val + 1)
      0 true false 5 900 (upWith [(Reg.finCfg 0, 0x2000), (Reg.odoCfg, 1)])) ∧
    -- clause 2, direction
    ((fun (n : Fin 8) (level _ : Bool) (_ : ChainTime) (_ : Nat) (s : State) =>
      s.coreUp = true ∧ s.domainOn (72 + n.val) = true ∧ (s.motion.fins[n]).level ≠ level ∧ s.finBars n = false ∧ s.quad (evenOf n).val = false ∧ s.odoSource ≠ n.val + 1 ∧ s.singleFin = true ∧ s.domainOn 101 = true ∧ fld (s.reg Reg.odoCfg) 4 2 = 2)
      7 true false 5 900 (upWith [(Reg.finCfg 7, 0x2000), (Reg.odoCfg, 0x3A1)])) ∧
    -- clause 6, rising
    ((fun (n : Fin 8) (level _ : Bool) (_ : ChainTime) (_ : Nat) (s : State) =>
      s.coreUp = true ∧ s.domainOn (72 + n.val) = true ∧ s.domainOn 101 = true ∧ (s.motion.fins[n]).level ≠ level ∧ s.finBars n = false ∧ s.quad (evenOf n).val = false ∧ s.odoSource = n.val + 1 ∧ fld (s.reg (Reg.finCfg n)) 12 2 = 0 ∧ xor level (bit (s.reg (Reg.finCfg n)) 14) = true)
      0 true false 5 900 (upWith [(Reg.odoCfg, 1)])) ∧
    -- clause 6, falling
    ((fun (n : Fin 8) (level _ : Bool) (_ : ChainTime) (_ : Nat) (s : State) =>
      s.coreUp = true ∧ s.domainOn (72 + n.val) = true ∧ s.domainOn 101 = true ∧ (s.motion.fins[n]).level ≠ level ∧ s.finBars n = false ∧ s.quad (evenOf n).val = false ∧ s.odoSource = n.val + 1 ∧ fld (s.reg (Reg.finCfg n)) 12 2 = 1 ∧ xor level (bit (s.reg (Reg.finCfg n)) 14) = false)
      0 true false 5 900 (upWith [(Reg.finCfg 0, 0x5000), (Reg.odoCfg, 1)])) ∧
    -- clause 6, other
    ((fun (n : Fin 8) (level _ : Bool) (_ : ChainTime) (_ : Nat) (s : State) =>
      s.coreUp = true ∧ s.domainOn (72 + n.val) = true ∧ s.domainOn 101 = true ∧ (s.motion.fins[n]).level ≠ level ∧ s.finBars n = false ∧ s.quad (evenOf n).val = false ∧ s.odoSource = n.val + 1 ∧ fld (s.reg (Reg.finCfg n)) 12 2 = 1 ∧ xor level (bit (s.reg (Reg.finCfg n)) 14) = true)
      0 true false 5 900 (upWith [(Reg.finCfg 0, 0x1000), (Reg.odoCfg, 1)])) ∧
    -- clause 7, single
    ((fun (n : Fin 8) (level both : Bool) (_ : ChainTime) (_ : Nat) (s : State) =>
      s.coreUp = true ∧ s.domainOn (72 + n.val) = true ∧ s.domainOn 101 = true ∧ (s.motion.fins[n]).level ≠ level ∧ s.finBars n = false ∧ s.quad (evenOf n).val = true ∧ s.odoSource = (evenOf n).val + 1 ∧ both = false)
      1 true false 5 900 (upWith [(Reg.finCfg 0, 0x8000), (Reg.odoCfg, 1)])) ∧
    -- clause 7, both
    ((fun (n : Fin 8) (level both : Bool) (_ : ChainTime) (_ : Nat) (s : State) =>
      s.coreUp = true ∧ s.domainOn (72 + n.val) = true ∧ s.domainOn 101 = true ∧ (s.motion.fins[n]).level ≠ level ∧ s.finBars n = false ∧ s.quad (evenOf n).val = true ∧ s.odoSource = (evenOf n).val + 1 ∧ both = true ∧ s.finBars (mateOf n) = false)
      1 true true 5 900 (upWith [(Reg.finCfg 0, 0x8000), (Reg.odoCfg, 1)])) := by
  refine ⟨?_, ?_, ?_, ?_, ?_, ?_, ?_, ?_, ?_, ?_, ?_, ?_, ?_, ?_⟩ <;> dsimp only <;> repeat' (first | refine And.intro ?_ ?_ | decide +kernel | constructor)

theorem witness_EncodersAreRead :
    -- clause 4
    ((fun (_ : Fin 4) (_ _ : Nat) (_ : Bool) (s : State) =>
      s.phase ≠ .running)
      1 10 4 true { phase := .boot }) ∧
    -- clause 5
    ((fun (p : Fin 4) (_ : Nat) (_ : Bool) (s : State) =>
      s.phase = .running ∧ s.domainOn (68 + p.val) = true ∧ bit (s.reg (Reg.encCfg p)) 21 = true)
      1 10 true (upWith [(Reg.encCfg 1, 0x200000)])) ∧
    -- clause 6
    ((fun (p : Fin 4) (_ : Nat) (_ : Bool) (s : State) =>
      bit (s.reg (Reg.encCfg p)) 21 = false)
      1 10 true up) ∧
    -- clause 7, off
    ((fun (n : Nat) (s : State) =>
      (∀ o, s.ckout.old = some o → o.2 ≤ n) ∧ bit (s.reg Reg.ckout) 18 = false)
      4 up) ∧
    -- clause 7, gated
    ((fun (n : Nat) (s : State) =>
      (∀ o, s.ckout.old = some o → o.2 ≤ n) ∧ bit (s.reg Reg.ckout) 18 = true ∧ s.clockOn (fld (s.reg Reg.ckout) 0 6) = false)
      4 { upWithout 102 with regs := [(Reg.ckout, 0x40001)] }) ∧
    -- clause 7, on
    ((fun (n : Nat) (s : State) =>
      (∀ o, s.ckout.old = some o → o.2 ≤ n) ∧ s.phase = .running ∧ s.ckout.start ≤ n ∧ s.ckout.wait ≤ s.ckoutCycles (s.reg Reg.ckout) n ∧ bit (s.reg Reg.ckout) 18 = true ∧ s.clockOn (fld (s.reg Reg.ckout) 0 6) = true ∧ ckoutDiv (s.reg Reg.ckout) ≠ 1)
      4800 (upWith [(Reg.ckout, 0x40040)])) ∧
    -- clause 7, source
    ((fun (n : Nat) (s : State) =>
      (∀ o, s.ckout.old = some o → o.2 ≤ n) ∧ s.phase = .running ∧ s.ckout.start ≤ n ∧ s.ckout.wait ≤ s.ckoutCycles (s.reg Reg.ckout) n ∧ bit (s.reg Reg.ckout) 18 = true ∧ s.clockOn (fld (s.reg Reg.ckout) 0 6) = true ∧ ckoutDiv (s.reg Reg.ckout) = 1)
      4800 (upWith [(Reg.ckout, 0x40001)])) ∧
    -- clause 7, gap
    ((fun (n : Nat) (s : State) =>
      (∀ o, s.ckout.old = some o → o.2 ≤ n) ∧ s.ckoutCycles (s.reg Reg.ckout) n < s.ckout.wait)
      4800 { upWith [(Reg.ckout, 0x40001)] with ckout := { wait := 10 ^ 9 } }) ∧
    -- clause 8
    ((fun (n until_ : Nat) (w : Word) (s : State) =>
      s.phase = .running ∧ s.ckout.old = some (w, until_) ∧ n < until_ ∧ s.clockOn (fld w 0 6) = true)
      4 5 0x40040 { up with ckout := { start := 9, old := some (0x40040, 5) } }) ∧
    -- clause 1
    ((fun (p : Fin 4) (s : State) =>
      s.coreUp = true ∧ s.domainOn (68 + p.val) = true ∧ s.encRole p ≠ 0 ∧ (s.motion.encs[p]).due ≤ s.clk)
      1 (upWith [(Reg.encCfg 1, 0x100018)])) ∧
    -- clause 2, low
    ((fun (p : Fin 4) (r : EncoderRead) (s : State) =>
      s.coreUp = true ∧ s.domainOn (68 + p.val) = true ∧ (s.motion.encs[p]).reading = true ∧ s.encRole p ≠ 1 ∧ r.startHigh = false)
      1 { startHigh := false, bits := 0, tail := false, endHigh := true } { upWith [(Reg.encCfg 1, 0x100018)] with motion := { up.motion with encs := upd up.motion.encs 1 fun e => { e with reading := true, fails := 2 } } }) ∧
    -- clause 2, tail
    ((fun (p : Fin 4) (r : EncoderRead) (s : State) =>
      s.coreUp = true ∧ s.domainOn (68 + p.val) = true ∧ (s.motion.encs[p]).reading = true ∧ s.encRole p ≠ 1 ∧ r.tail = true)
      1 { startHigh := true, bits := 0, tail := true, endHigh := true } { upWith [(Reg.encCfg 1, 0x100018)] with motion := { up.motion with encs := upd up.motion.encs 1 fun e => { e with reading := true, fails := 2 } } }) ∧
    -- clause 2, end
    ((fun (p : Fin 4) (r : EncoderRead) (s : State) =>
      s.coreUp = true ∧ s.domainOn (68 + p.val) = true ∧ (s.motion.encs[p]).reading = true ∧ s.encRole p ≠ 1 ∧ r.endHigh = false)
      1 { startHigh := true, bits := 0, tail := false, endHigh := false } { upWith [(Reg.encCfg 1, 0x100018)] with motion := { up.motion with encs := upd up.motion.encs 1 fun e => { e with reading := true, fails := 2 } } }) ∧
    -- clause 2, good
    ((fun (p : Fin 4) (_ : EncoderRead) (s : State) =>
      s.coreUp = true ∧ s.domainOn (68 + p.val) = true ∧ (s.motion.encs[p]).reading = true ∧ s.encRole p ≠ 1 ∧ (s.motion.encs[p]).valid = false)
      1 { startHigh := true, bits := 0x3, tail := false, endHigh := true } { upWith [(Reg.encCfg 1, 0x100018)] with motion := { up.motion with encs := upd up.motion.encs 1 fun e => { e with reading := true, fails := 2 } } }) ∧
    -- clause 2, jump
    ((fun (p : Fin 4) (r : EncoderRead) (s : State) =>
      s.coreUp = true ∧ s.domainOn (68 + p.val) = true ∧ (s.motion.encs[p]).reading = true ∧ s.encRole p ≠ 1 ∧ (s.motion.encs[p]).valid = true ∧ s.regN (Reg.encJump p) ≠ 0 ∧ (s.regN (Reg.encJump p) < (wordDiff (s.encWidth p) (r.bits.toNat % 2 ^ s.encWidth p) (s.motion.encs[p]).word.toNat).natAbs))
      1 { startHigh := true, bits := 0x3, tail := false, endHigh := true } { upWith [(Reg.encCfg 1, 0x100018), (Reg.encJump 1, 2)] with motion := { up.motion with encs := upd up.motion.encs 1 fun e => { e with reading := true, valid := true } } }) ∧
    -- clause 3, third
    ((fun (p : Fin 4) (r : EncoderRead) (s : State) =>
      s.coreUp = true ∧ s.domainOn (68 + p.val) = true ∧ (s.motion.encs[p]).reading = true ∧ s.encRole p = 1 ∧ r.startHigh = false ∧ 2 ≤ (s.motion.encs[p]).fails ∧ (s.motion.encs[p]).fault = false)
      1 { startHigh := false, bits := 0, tail := false, endHigh := true } { upWith [(Reg.encCfg 1, 0x080018), (Reg.encJump 1, 0)] with motion := { up.motion with encs := upd up.motion.encs 1 fun e => { e with reading := true, fails := 2 } } }) ∧
    -- clause 3, first
    ((fun (p : Fin 4) (r : EncoderRead) (s : State) =>
      s.coreUp = true ∧ s.domainOn (68 + p.val) = true ∧ (s.motion.encs[p]).reading = true ∧ s.encRole p = 1 ∧ r.tail = true ∧ (s.motion.encs[p]).fails < 2)
      1 { startHigh := true, bits := 0, tail := true, endHigh := true } { upWith [(Reg.encCfg 1, 0x080018), (Reg.encJump 1, 0)] with motion := { up.motion with encs := upd up.motion.encs 1 fun e => { e with reading := true } } }) ∧
    -- clause 3, drives
    ((fun (p : Fin 4) (r : EncoderRead) (s : State) =>
      s.coreUp = true ∧ s.domainOn (68 + p.val) = true ∧ (s.motion.encs[p]).reading = true ∧ s.encRole p = 1 ∧ r.startHigh = true ∧ r.tail = false ∧ r.endHigh = true ∧ s.odoSource = 9 + p.val ∧ s.domainOn 101 = true)
      1 { startHigh := true, bits := 9, tail := false, endHigh := true } { upWith [(Reg.encCfg 1, 0x080018), (Reg.encJump 1, 0), (Reg.odoCfg, 10)] with motion := { up.motion with encs := upd up.motion.encs 1 fun e => { e with reading := true, valid := true, fault := true, fails := 3, word := 5 } } }) ∧
    -- clause 3, good
    ((fun (p : Fin 4) (r : EncoderRead) (s : State) =>
      s.coreUp = true ∧ s.domainOn (68 + p.val) = true ∧ (s.motion.encs[p]).reading = true ∧ s.encRole p = 1 ∧ r.startHigh = true ∧ r.tail = false ∧ r.endHigh = true ∧ s.odoSource ≠ 9 + p.val)
      1 { startHigh := true, bits := 9, tail := false, endHigh := true } { upWith [(Reg.encCfg 1, 0x080018), (Reg.encJump 1, 0)] with motion := { up.motion with encs := upd up.motion.encs 1 fun e => { e with reading := true, valid := true, word := 5 } } }) := by
  refine ⟨?_, ?_, ?_, ?_, ?_, ?_, ?_, ?_, ?_, ?_, ?_, ?_, ?_, ?_, ?_, ?_, ?_, ?_, ?_⟩ <;> dsimp only <;> repeat' (first | refine And.intro ?_ ?_ | decide +kernel | constructor)

theorem witness_EstimatesFollowThePairs :
    -- clause 2
    ((fun (s : State) =>
      s.coreUp = true ∧ s.domainOn 101 = true ∧ s.speedInUse = true ∧ s.motion.speedTold = false ∧ s.motion.speedSince + 1000 * s.regN Reg.odoSpdtmo ≤ s.clk)
      (upWith [(Reg.odoCfg, 13)])) ∧
    -- clause 3
    ((fun (s : State) =>
      (s.coreUp = false ∨ s.domainOn 101 = false ∨ s.speedInUse = false ∨ s.motion.speedTold = true ∨ s.clk < s.motion.speedSince + 1000 * s.regN Reg.odoSpdtmo))
      up) ∧
    -- clause 4
    ((fun (s : State) =>
      (s.coreUp = false ∨ (s.domainOn 101 = false ∧ s.unit.st.casting = false) ∨ s.now % 100 ≠ 0 ∨ s.engine.lastWatch = some s.time))
      (withTime 1000050 up)) ∧
    -- clause 5, limit
    ((fun (s : State) =>
      s.coreUp = true ∧ s.domainOn 101 = false ∧ s.unit.st.casting = true ∧ s.now % 100 = 0 ∧ s.engine.lastWatch ≠ some s.time ∧ s.strandedLimit.isSome = true)
      { upWithout 101 with unit := { st := .stranded, strUs := 4000000000000 } }) ∧
    -- clause 5, none
    ((fun (s : State) =>
      s.coreUp = true ∧ s.domainOn 101 = false ∧ s.unit.st.casting = true ∧ s.now % 100 = 0 ∧ s.engine.lastWatch ≠ some s.time ∧ s.strandedLimit = none)
      { upWithout 101 with unit := { st := .underway } }) ∧
    -- clause 6, none
    ((fun (s : State) =>
      s.coreUp = true ∧ s.domainOn 101 = true ∧ s.now % 100 = 0 ∧ s.engine.lastWatch ≠ some s.time ∧ s.odoSource = 0 ∧ s.unit.st.casting = false)
      up) ∧
    -- clause 6, lanes
    ((fun (s : State) =>
      s.coreUp = true ∧ s.domainOn 101 = true ∧ s.now % 100 = 0 ∧ s.engine.lastWatch ≠ some s.time ∧ s.unit.st.casting = true ∧ s.unit.st ≠ .stranded ∧ s.lanesRun = true)
      (upIn .underway)) ∧
    -- clause 6, limit
    ((fun (s : State) =>
      s.coreUp = true ∧ s.domainOn 101 = true ∧ s.now % 100 = 0 ∧ s.engine.lastWatch ≠ some s.time ∧ s.unit.st.casting = true ∧ s.strandedLimit.isSome = true)
      { upIn .stranded with unit := { st := .stranded, strUs := 4000000000000 } }) := by
  refine ⟨?_, ?_, ?_, ?_, ?_, ?_, ?_, ?_⟩ <;> dsimp only <;> repeat' (first | refine And.intro ?_ ?_ | decide +kernel | constructor)

theorem witness_LanesJudgeTheHead :
    -- clause 2
    ((fun (s : State) (i : Fin 32) (act : CrossAction) =>
      act ≠ .close ∧ s.xcfgBit (chS i) 1 = true)
      (upWith [(Reg.xcfg 3, 2)]) 3 .open_) ∧
    -- clause 5, never
    ((fun (c : Fin 40) (x : Crossing) (rest : List Crossing) (s : State) =>
      (s.engine.chans[c]).manifest = x :: rest ∧ x.stale = false ∧ headCase x.dir (targetDistance x.target s.newestPair.pos) 1 = .projected ∧ (arrivalTau (targetDistance x.target s.newestPair.pos).natAbs s.motion.vel.abs s.motion.acc) = none)
      3 (xing 7) [] { upX 3 { manifest := [xing 7] } with motion := { up.motion with pairs := [{ pos := BitVec.ofNat 40 (4999 * 65536), t := 1000000 }], vel := { num := 1 }, acc := { num := -1 } } }) ∧
    -- clause 5, far
    ((fun (c : Fin 40) (x : Crossing) (rest : List Crossing) (s : State) =>
      (s.engine.chans[c]).manifest = x :: rest ∧ x.stale = false ∧ headCase x.dir (targetDistance x.target s.newestPair.pos) 1 = .projected ∧ (arrivalTau (targetDistance x.target s.newestPair.pos).natAbs s.motion.vel.abs s.motion.acc).isSome = true ∧ s.lane c 1 = s)
      3 (xing 7) [] { upX 3 { manifest := [xing 7] } with motion := { up.motion with pairs := [{ pos := BitVec.ofNat 40 (4000 * 65536), t := 1000000 }], vel := { num := 1 } } }) ∧
    -- clause 5, late
    ((fun (c : Fin 40) (x : Crossing) (rest : List Crossing) (s : State) =>
      (s.engine.chans[c]).manifest = x :: rest ∧ x.stale = false ∧ headCase x.dir (targetDistance x.target s.newestPair.pos) 1 = .projected ∧ (arrivalTau (targetDistance x.target s.newestPair.pos).natAbs s.motion.vel.abs s.motion.acc).isSome = true ∧ s.held c = false ∧ (s.lane c 1).engine.chans ≠ s.engine.chans ∧ (s.lane c 1).engine.eLate ≠ s.engine.eLate)
      3 (xing 7) [] { upX 3 { manifest := [xing 7] } with motion := { up.motion with pairs := [{ pos := BitVec.ofNat 40 (4999 * 65536), t := 1000000 }], vel := { num := 100000 } } }) ∧
    -- clause 5, cast
    ((fun (c : Fin 40) (x : Crossing) (rest : List Crossing) (s : State) =>
      (s.engine.chans[c]).manifest = x :: rest ∧ x.stale = false ∧ headCase x.dir (targetDistance x.target s.newestPair.pos) 1 = .projected ∧ (arrivalTau (targetDistance x.target s.newestPair.pos).natAbs s.motion.vel.abs s.motion.acc).isSome = true ∧ s.held c = false ∧ (s.lane c 1).engine.chans ≠ s.engine.chans)
      3 (xing 7) [] { upX 3 { manifest := [xing 7] } with motion := { up.motion with pairs := [{ pos := BitVec.ofNat 40 (4999 * 65536), t := 1000000 }], vel := { num := 126984 } } }) ∧
    -- clause 5, held
    ((fun (c : Fin 40) (x : Crossing) (rest : List Crossing) (s : State) =>
      (s.engine.chans[c]).manifest = x :: rest ∧ x.stale = false ∧ headCase x.dir (targetDistance x.target s.newestPair.pos) 1 = .projected ∧ (arrivalTau (targetDistance x.target s.newestPair.pos).natAbs s.motion.vel.abs s.motion.acc).isSome = true ∧ s.held c = true)
      3 (xing 7) [] { ({ upX 3 { manifest := [xing 7] } with motion := { up.motion with pairs := [{ pos := BitVec.ofNat 40 (5000 * 65536), t := 1000000 }], vel := { num := 1 } } } : State) with unit := { st := .underway, shut := 8 } }) ∧
    -- clause 6, waits
    ((fun (c : Fin 40) (x : Crossing) (rest : List Crossing) (s : State) =>
      (s.engine.chans[c]).manifest = x :: rest ∧ x.stale = false ∧ headCase x.dir (targetDistance x.target s.newestPair.pos) (-1) = .waits ∧ s.motion.vel.num = -1)
      3 (xing 7) [] { upX 3 { manifest := [xing 7] } with motion := { up.motion with pairs := [{ pos := BitVec.ofNat 40 (4000 * 65536), t := 1000000 }], vel := { num := -1 } } }) ∧
    -- clause 6, missed
    ((fun (c : Fin 40) (x : Crossing) (rest : List Crossing) (s : State) =>
      (s.engine.chans[c]).manifest = x :: rest ∧ x.stale = false ∧ headCase x.dir (targetDistance x.target s.newestPair.pos) 1 = .behind ∧ x.late = false)
      3 (xing 7) [] { upX 3 { manifest := [xing 7] } with motion := { up.motion with pairs := [{ pos := BitVec.ofNat 40 (6000 * 65536), t := 1000000 }], vel := { num := 1 } } }) ∧
    -- clause 6, late
    ((fun (c : Fin 40) (x : Crossing) (rest : List Crossing) (s : State) =>
      (s.engine.chans[c]).manifest = x :: rest ∧ x.stale = false ∧ headCase x.dir (targetDistance x.target s.newestPair.pos) 1 = .behind ∧ x.late = true ∧ s.held c = false)
      3 (xing 7 .open_ true) [] { upX 3 { manifest := [xing 7 .open_ true] } with motion := { up.motion with pairs := [{ pos := BitVec.ofNat 40 (6000 * 65536), t := 1000000 }], vel := { num := 1 } } }) ∧
    -- clause 6, held
    ((fun (c : Fin 40) (x : Crossing) (rest : List Crossing) (s : State) =>
      (s.engine.chans[c]).manifest = x :: rest ∧ x.stale = false ∧ headCase x.dir (targetDistance x.target s.newestPair.pos) 1 = .behind ∧ x.late = true ∧ s.held c = true)
      3 (xing 7 .open_ true) [] { ({ upX 3 { manifest := [xing 7 .open_ true] } with motion := { up.motion with pairs := [{ pos := BitVec.ofNat 40 (6000 * 65536), t := 1000000 }], vel := { num := 1 } } } : State) with unit := { st := .underway, shut := 8 } }) := by
  refine ⟨?_, ?_, ?_, ?_, ?_, ?_, ?_, ?_, ?_, ?_⟩ <;> dsimp only <;> repeat' (first | refine And.intro ?_ ?_ | decide +kernel | constructor)

theorem witness_CastsAndLandings :
    -- clause 1, sol
    ((fun (c : Fin 40) (k : Current) (rest : List Current) (s : State) =>
      (s.engine.chans[c]).decided = k :: rest ∧ s.lanesRun = true ∧ s.reached k.ts = true)
      3 (chosen 7) [] (upX 3 { decided := [chosen 7] })) ∧
    -- clause 1, valve
    ((fun (c : Fin 40) (k : Current) (rest : List Current) (s : State) =>
      (s.engine.chans[c]).decided = k :: rest ∧ s.lanesRun = true ∧ s.reached k.ts = true)
      39 (chosen 7) [] (upX 39 { decided := [chosen 7] })) ∧
    -- clause 2
    ((fun (c : Fin 32) (k : Current) (at_ : ChainTime) (s : State) =>
      s.coreUp = true ∧ (s.engine.chans[chS c]).cur = some k ∧ k.stage = .cast ∧ k.landAt = some at_ ∧ s.reached at_ = true)
      3 (chosen 7 .cast .close (some 1000000)) 1000000 (upX 3 { cur := some (chosen 7 .cast .close (some 1000000)) })) ∧
    -- clause 3
    ((fun (v : Fin 8) (k : Current) (at_ : ChainTime) (s : State) =>
      s.coreUp = true ∧ (s.engine.chans[chV v]).cur = some k ∧ k.stage = .cast ∧ k.landAt = some at_ ∧ s.reached at_ = true)
      7 (chosen 7 .cast .open_ (some 1000000)) 1000000 (upX 39 { cur := some (chosen 7 .cast .open_ (some 1000000)) })) ∧
    -- clause 1, lands
    ((fun (c : Fin 40) (k : Current) (rest : List Current) (s : State) =>
      (s.engine.chans[c]).decided = k :: rest ∧ s.lanesRun = true ∧ s.reached k.ts = true ∧ k.x.action = .close ∧ (s.sol.chans[3]).want = false ∧ (s.sol.chans[3]).pulsing = false)
      3 (chosen 7 .decided .close) [] (upX 3 { decided := [chosen 7 .decided .close], level := .open_ })) ∧
    -- clause 1, closes
    ((fun (c : Fin 40) (k : Current) (rest : List Current) (s : State) =>
      (s.engine.chans[c]).decided = k :: rest ∧ s.lanesRun = true ∧ s.reached k.ts = true ∧ k.x.action = .close ∧ (s.sol.chans[3]).want = true)
      3 (chosen 7 .decided .close) [] (let u := upX 3 { decided := [chosen 7 .decided .close], level := .open_ }; { u with sol := (upSol 3 { want := true, phase := .hold }).sol })) ∧
    -- clause 1, stands
    ((fun (c : Fin 40) (k : Current) (rest : List Current) (s : State) =>
      (s.engine.chans[c]).decided = k :: rest ∧ s.lanesRun = true ∧ s.reached k.ts = true ∧ k.x.action = .close ∧ s.standsAt 7 .closed = true ∧ s.limAsserted 7 .open_ = false)
      39 (chosen 7 .decided .close) [] (let u := upX 39 { decided := [chosen 7 .decided .close] }; { u with regs := [(Reg.mvCfg 7, 1)], pwm := (upValve 7 { atClosed := true }).pwm })) := by
  refine ⟨?_, ?_, ?_, ?_, ?_, ?_, ?_⟩ <;> dsimp only <;> repeat' (first | refine And.intro ?_ ?_ | decide +kernel | constructor)

theorem witness_DipsLandAndTeach :
    -- clause 1, boost
    ((fun (c : Fin 32) (s : State) =>
      s.coreUp = true ∧ s.domainOn c.val = true ∧ s.isOdd c = false ∧ ((s.sol.chans[c]).phase = .boost ∨ (s.sol.chans[c]).phase = .peak) ∧ (s.sol.chans[c]).dip = none ∧ 100 * fld (s.reg (0x1100 + 8 * c.val)) 8 10 ≤ s.since (s.sol.chans[c]).boostAt ∧ s.xcfgBit (chS c) 0 = true)
      3 { upSol 3 { phase := .boost, teach := true, boostAt := 980000 } with regs := [(Reg.xcfg 3, 0x101)] }) ∧
    -- clause 1, peak
    ((fun (c : Fin 32) (s : State) =>
      s.coreUp = true ∧ s.domainOn c.val = true ∧ s.isOdd c = false ∧ ((s.sol.chans[c]).phase = .boost ∨ (s.sol.chans[c]).phase = .peak) ∧ (s.sol.chans[c]).dip = none ∧ 100 * fld (s.reg (0x1100 + 8 * c.val)) 8 10 ≤ s.since (s.sol.chans[c]).boostAt ∧ (s.engine.chans[chS c]).cur = some (chosen 7 .cast) ∧ s.unit.st.casting = true ∧ (s.sol.chans[c]).post = some 0)
      3 { upX 3 { cur := some (chosen 7 .cast) } with sol := { up.sol with chans := upd up.sol.chans 3 fun x => { x with phase := .peak, post := some 0, boostAt := 980000 } } }) := by
  refine ⟨?_, ?_⟩ <;> dsimp only <;> repeat' (first | refine And.intro ?_ ?_ | decide +kernel | constructor)

theorem witness_BoostIsGranted :
    -- clause 1
    ((fun (b : Fin 8) (s : State) =>
      (s.sol.banks[b]).holder ≠ none ∨ (s.sol.banks[b]).queue = [])
      7 up) ∧
    -- clause 2
    ((fun (b : Fin 8) (c : Fin 32) (rest : List (Fin 32)) (s : State) =>
      (s.sol.banks[b]).holder = none ∧ (s.sol.banks[b]).queue = c :: rest ∧ bankOf c = b ∧ s.sol.boost.rdy = true)
      7 31 [] (upBoost { run := true, rdy := true } (upBank 7 { queue := [31] } { upSol 31 { phase := .queued, want := true } .ready with regs := [] }))) ∧
    -- clause 3, policy0
    ((fun (b : Fin 8) (c : Fin 32) (rest : List (Fin 32)) (s : State) =>
      (s.sol.banks[b]).holder = none ∧ (s.sol.banks[b]).queue = c :: rest ∧ bankOf c = b ∧ s.sol.boost.rdy = false ∧ fld (s.reg (Reg.bankCfg b)) 9 2 = 0)
      0 3 [] (upBoost { run := true, rdy := false } (upBank 0 { queue := [3] } { upSol 3 { phase := .queued, want := true } .ready with regs := [(Reg.bankCfg 0, 40960)] }))) ∧
    -- clause 3, policy1
    ((fun (b : Fin 8) (c : Fin 32) (rest : List (Fin 32)) (s : State) =>
      (s.sol.banks[b]).holder = none ∧ (s.sol.banks[b]).queue = c :: rest ∧ bankOf c = b ∧ s.sol.boost.rdy = false ∧ fld (s.reg (Reg.bankCfg b)) 9 2 = 1)
      0 3 [] (upBoost { run := true, rdy := false } (upBank 0 { queue := [3] } { upSol 3 { phase := .queued, want := true } .ready with regs := [(Reg.bankCfg 0, 41472)] }))) ∧
    -- clause 3, policy2
    ((fun (b : Fin 8) (c : Fin 32) (rest : List (Fin 32)) (s : State) =>
      (s.sol.banks[b]).holder = none ∧ (s.sol.banks[b]).queue = c :: rest ∧ bankOf c = b ∧ s.sol.boost.rdy = false ∧ fld (s.reg (Reg.bankCfg b)) 9 2 = 2)
      0 3 [] (upBoost { run := true, rdy := false } (upBank 0 { queue := [3] } { upSol 3 { phase := .queued, want := true } .ready with regs := [(Reg.bankCfg 0, 41984)] }))) ∧
    -- clause 4
    ((fun (b : Fin 8) (c : Fin 32) (at_ : ChainTime) (s : State) =>
      (s.sol.banks[b]).holder = some c ∧ bankOf c = b ∧ (s.sol.banks[b]).waitUntil = some at_ ∧ (s.sol.chans[c]).phase = .bnrwait ∧ s.reached at_ = true)
      0 3 1000000 (upBank 0 { holder := some 3, waitUntil := some 1000000 } (upSol 3 { phase := .bnrwait }))) ∧
    -- clause 5
    ((fun (vbst : Nat) (s : State) =>
      s.sol.boost.run = true ∧ s.sol.boost.rdy = false ∧ s.inBand vbst = true ∧ (s.sol.chans[(3 : Fin 32)]).phase = .bnrwait)
      (up.bstTarget) (upBoost { run := true } (upBank 0 { holder := some 3, waitUntil := some 1000000 } (upSol 3 { phase := .bnrwait })))) ∧
    -- clause 6
    ((fun (vbst : Nat) (s : State) =>
      s.sol.boost.run = true ∧ s.sol.boost.rdy = true ∧ s.inBand vbst = false)
      (up.bstTarget / 2) (upBoost { run := true, rdy := true } up)) ∧
    -- clause 7, 63V
    ((fun (vbst : Nat) (s : State) =>
      s.sol.boost.run = true ∧ s.sol.boost.ov = false ∧ (11 * s.bstTarget < 10 * vbst ∨ 630 < vbst))
      631 (upBoost { run := true } up)) ∧
    -- clause 7, 110
    ((fun (vbst : Nat) (s : State) =>
      s.sol.boost.run = true ∧ s.sol.boost.ov = false ∧ (11 * s.bstTarget < 10 * vbst ∨ 630 < vbst) ∧ 11 * s.bstTarget < 10 * vbst)
      (11 * up.bstTarget / 10 + 1) (upBoost { run := true } up)) ∧
    -- clause 8
    ((fun (_ : Nat) (s : State) =>
      s.sol.boost.run = true ∧ s.sol.boost.rdy = false ∧ s.sol.boost.judged = false ∧ s.sol.boost.startAt + 100000 ≤ s.clk)
      100 (upBoost { run := true } up)) := by
  refine ⟨?_, ?_, ?_, ?_, ?_, ?_, ?_, ?_, ?_, ?_, ?_⟩ <;> dsimp only <;> repeat' (first | refine And.intro ?_ ?_ | decide +kernel | constructor)

theorem witness_PhasesEndInOrder :
    -- clause 1
    ((fun (c : Fin 32) (_ : Nat) (s : State) =>
      (s.sol.chans[c]).phase ≠ .boost ∨ s.reached (s.sol.chans[c]).phaseEnd = false)
      3 99 (upSol 3 { phase := .hold })) ∧
    -- clause 2, ol
    ((fun (c : Fin 32) (filtered : Nat) (s : State) =>
      (s.sol.chans[c]).phase = .boost ∧ s.reached (s.sol.chans[c]).phaseEnd = true ∧ filtered < 100 ∧ s.tpeak c ≠ 0)
      3 99 (upBank 0 { holder := some 3 } { upSol 3 { phase := .boost, want := true, phaseEnd := 1000000 } with regs := [] })) ∧
    -- clause 2, hold
    ((fun (c : Fin 32) (_ : Nat) (s : State) =>
      (s.sol.chans[c]).phase = .boost ∧ s.reached (s.sol.chans[c]).phaseEnd = true ∧ s.tpeak c = 0)
      3 100 (upBank 0 { holder := some 3 } { upSol 3 { phase := .boost, want := true, phaseEnd := 1000000 } with regs := [(Reg.tpeak 3, 0)] })) ∧
    -- clause 2, pkexit
    ((fun (c : Fin 32) (_ : Nat) (s : State) =>
      (s.sol.chans[c]).phase = .boost ∧ s.reached (s.sol.chans[c]).phaseEnd = true ∧ (s.sol.chans[c]).dip = some 900000 ∧ s.profBit c 5 = true ∧ s.reached (after 900000 (s.pkpost c)) = true)
      3 100 (upBank 0 { holder := some 3 } { upSol 3 { phase := .boost, want := true, phaseEnd := 1000000, dip := some 900000 } with regs := [(Reg.prof 3, 0x20)] })) ∧
    -- clause 2, noland
    ((fun (c : Fin 32) (_ : Nat) (s : State) =>
      (s.sol.chans[c]).phase = .boost ∧ s.reached (s.sol.chans[c]).phaseEnd = true ∧ (s.sol.chans[c]).dip = none ∧ s.tpeak c = 0 ∧ s.profBit c 6 = true ∧ fld (s.reg (Reg.prof c)) 7 4 ≤ 3)
      3 100 (upBank 0 { holder := some 3 } { upSol 3 { phase := .boost, want := true, phaseEnd := 1000000, nlrun := 2 } with regs := [(Reg.prof 3, 0x1C0), (Reg.tpeak 3, 0)] })) ∧
    -- clause 3
    ((fun (c : Fin 32) (s : State) =>
      (s.sol.chans[c]).phase ≠ .peak ∨ s.reached (s.sol.chans[c]).phaseEnd = false)
      3 (upBank 0 { holder := some 3 } { upSol 3 { phase := .boost, want := true, phaseEnd := 1000000 } with regs := [] })) ∧
    -- clause 4, noland
    ((fun (c : Fin 32) (s : State) =>
      (s.sol.chans[c]).phase = .peak ∧ s.reached (s.sol.chans[c]).phaseEnd = true ∧ (s.sol.chans[c]).dip = none ∧ s.profBit c 6 = true ∧ fld (s.reg (Reg.prof c)) 7 4 ≤ 15)
      3 (upBank 0 { holder := some 3 } { upSol 3 { phase := .peak, want := true, phaseEnd := 1000000, nlrun := 15 } with regs := [(Reg.prof 3, 0xC0)] })) ∧
    -- clause 4, landed
    ((fun (c : Fin 32) (s : State) =>
      (s.sol.chans[c]).phase = .peak ∧ s.reached (s.sol.chans[c]).phaseEnd = true ∧ (s.sol.chans[c]).dip.isSome = true)
      3 (upBank 0 { holder := some 3 } { upSol 3 { phase := .peak, want := true, phaseEnd := 1000000, dip := some 900000 } with regs := [] })) ∧
    -- clause 5
    ((fun (c : Fin 32) (s : State) =>
      (s.sol.chans[c]).decaying = true)
      3 (upSol 3 { phase := .off, decaying := true })) ∧
    -- clause 6
    ((fun (c : Fin 32) (s : State) =>
      (s.sol.chans[c]).phase ≠ .offwait ∨ (s.sol.chans[c]).decaying = true ∨ ((s.sol.chans[c]).offAt.any fun at_ => s.since at_ < s.toff c) = true)
      3 (upSol 3 { phase := .offwait, want := true, decaying := true })) ∧
    -- clause 7
    ((fun (c : Fin 32) (s : State) =>
      (s.sol.chans[c]).phase = .offwait ∧ (s.sol.chans[c]).decaying = false ∧ ((s.sol.chans[c]).offAt.any fun at_ => s.since at_ < s.toff c) = false)
      3 (upBank 0 { queue := [1, 2] } (upSol 3 { phase := .offwait, want := true, offAt := some 900000 }))) ∧
    -- clause 8
    ((fun (s : State) =>
      s.nvm.actSaved + 64 ≤ s.recorder.optime.toNat)
      { up with recorder := { optime := 64 } }) := by
  refine ⟨?_, ?_, ?_, ?_, ?_, ?_, ?_, ?_, ?_, ?_, ?_, ?_⟩ <;> dsimp only <;> repeat' (first | refine And.intro ?_ ?_ | decide +kernel | constructor)

theorem witness_PulsesAndChopping :
    -- clause 1
    ((fun (c : Fin 32) (s : State) =>
      s.periodDue c = false)
      2 up) ∧
    -- clause 2
    ((fun (c : Fin 32) (f p : Nat) (d : Frac) (s : State) =>
      s.periodDue c = true ∧ s.solDemand c = .pulse f p d ∧ d.isFull = false ∧ s.onInterval c f d ≠ 0)
      2 10 0 { num := 50, den := 1 } { upSol 2 { manual := .pulse { f := 10, d := 50, p := 0 }, pulsing := true } with time := 1000000 }) ∧
    -- clause 3
    ((fun (c : Fin 32) (s : State) =>
      s.onEndDue c = false)
      2 up) ∧
    -- clause 4, hold
    ((fun (c : Fin 32) (s : State) =>
      s.onEndDue c = true ∧ (s.sol.chans[c]).phase = .hold)
      2 (withTime 1000050 <| upSol 2 { phase := .hold, pulsing := true, want := true, manual := .pulse { f := 10, d := 50, p := 0 }, onUntil := some 1000050, lastStart := some 950000, grid := some (100000, 0) })) ∧
    -- clause 4, skip
    ((fun (c : Fin 32) (s : State) =>
      s.onEndDue c = true ∧ (s.sol.chans[c]).phase = .queued)
      2 (withTime 1000050 <| upBank 0 { queue := [2] } (upSol 2 { phase := .queued, pulsing := true, want := true, manual := .pulse { f := 10, d := 50, p := 0 }, onUntil := some 1000050, lastStart := some 950000, grid := some (100000, 0) }))) ∧
    -- clause 5
    ((fun (c : Fin 32) (_ : Nat) (s : State) =>
      s.domainOn c.val = false)
      2 5 (upWithout 2)) ∧
    -- clause 6
    ((fun (c : Fin 32) (current : Nat) (s : State) =>
      s.domainOn c.val = true ∧ (current < s.regN (Reg.hold c)))
      2 (up.regN (Reg.hold 2) - 1) (upSol 2 { phase := .hold })) := by
  refine ⟨?_, ?_, ?_, ?_, ?_, ?_, ?_⟩ <;> dsimp only <;> repeat' (first | refine And.intro ?_ ?_ | decide +kernel | constructor)

theorem witness_FaultsLatchAndClear :
    -- clause 1
    ((fun (c : Fin 32) (s : State) =>
      s.isOdd c = false ∧ s.domainOn c.val = true ∧ s.profBit c 11 = true ∧ (s.sol.chans[c]).phase = .idle ∧ (s.sol.chans[c]).idleClk + 1000 ≤ s.clk ∧ s.hsPath (bankOf c) = .vbat ∧ ((s.sol.banks[bankOf c]).vbatClk.any fun since => decide (since + 1000 ≤ s.clk)) = true)
      4 { upWith [(Reg.prof 4, 0x800)] .ready with sol := { up.sol with banks := up.sol.banks.map fun k => { k with vbatClk := some 1000000 } } }) ∧
    -- clause 2
    ((fun (c : Fin 32) (s : State) =>
      (s.sol.chans[s.leaderOf c]).phase.conducts = true ∧ s.Calm)
      4 (upSol 4 { phase := .boost })) ∧
    -- clause 3
    ((fun (b : Fin 8) (_ : Option (Fin 4)) (s : State) =>
      s.hsPath b ≠ .off ∧ s.Calm)
      1 none (upIn .ready)) ∧
    -- clause 4, at
    ((fun (b : Fin 8) (temp : Int) (s : State) =>
      s.domainOn (32 + b.val) = true ∧ 150 ≤ temp)
      7 150 up) ∧
    -- clause 4, below
    ((fun (b : Fin 8) (temp : Int) (s : State) =>
      s.domainOn (32 + b.val) = true ∧ temp < 150)
      7 149 up) ∧
    -- clause 5
    ((fun (b : Fin 8) (temp : Int) (s : State) =>
      s.domainOn (32 + b.val) = true ∧ s.Calm ∧ 175 ≤ temp ∧ (s.sol.banks[b]).fault.getLsbD 0 = false)
      7 175 (upIn .ready)) ∧
    -- clause 6
    ((fun (ln : LineHdr) (chans : List ChanItem) (s : State) =>
      s.Hears ln ∧ s.Lets ln .write .clear ∧ s.Calm ∧ s.listErr .all chans = none ∧ s.hotErr (s.listChans chans) = none ∧ s.bothErr (s.listChans chans) = none)
      ln [.one 3, .range 4 6] (upSol 3 { fault := 1 } .moored)) ∧
    -- clause 7
    ((fun (ln : LineHdr) (g : Fin 3) (s : State) =>
      s.Hears ln ∧ s.Lets ln .write .clear ∧ s.Calm ∧ s.fltActive.getLsbD g.val = false)
      ln 2 { up with pwm := { up.pwm with fltLatch := 4 } }) ∧
    -- clause 8
    ((fun (ln : LineHdr) (g : Fin 3) (s : State) =>
      s.Hears ln ∧ s.Lets ln .write .clear ∧ s.fltActive.getLsbD g.val = true ∧ s.pwm.fltLatch.getLsbD g.val = true)
      ln 2 { up with pwm := { up.pwm with fltLatch := 4, fltPin := 4 } }) := by
  refine ⟨?_, ?_, ?_, ?_, ?_, ?_, ?_, ?_, ?_⟩ <;> dsimp only <;> repeat' (first | refine And.intro ?_ ?_ | decide +kernel | constructor)

theorem witness_SlicesFollowTheirShadow :
    -- clause 1
    ((fun (i : Fin 12) (tick : Nat) (s : State) =>
      s.startDue i = some tick ∧ (s.pwm.slices[i]).endTick ≤ tick ∧ ((s.pwm.slices[i]).forced = false ∨ s.groupFault i = true))
      8 480000000 { upWith [(Reg.pwmCfg 8, 1)] with pwm := { up.pwm with slices := upd up.pwm.slices 8 fun w => { w with running := true, endTick := 480000000 } } }) ∧
    -- clause 2
    ((fun (i : Fin 12) (tick : Nat) (s : State) =>
      s.startDue i = some tick ∧ tick < (s.pwm.slices[i]).endTick)
      8 480000000 { upWith [(Reg.pwmCfg 8, 0x9)] with pwm := { up.pwm with slices := upd up.pwm.slices 8 fun w => { w with running := true, endTick := 480000100, syncs := [480000000] } } }) ∧
    -- clause 3, 20
    ((fun (taps : Nat) (s : State) =>
      s.coreUp = true ∧ s.domainOn 111 = true ∧ 20 ≤ taps ∧ taps ≤ 48)
      20 up) ∧
    -- clause 3, 48
    ((fun (taps : Nat) (s : State) =>
      s.coreUp = true ∧ s.domainOn 111 = true ∧ 20 ≤ taps ∧ taps ≤ 48)
      48 up) ∧
    -- clause 4, 19
    ((fun (taps : Nat) (s : State) =>
      s.coreUp = true ∧ s.domainOn 111 = true ∧ (taps < 20 ∨ 48 < taps))
      19 up) ∧
    -- clause 4, 49
    ((fun (taps : Nat) (s : State) =>
      s.coreUp = true ∧ s.domainOn 111 = true ∧ (taps < 20 ∨ 48 < taps))
      49 up) ∧
    -- clause 5
    ((fun (v : Fin 8) (s : State) =>
      (s.gates v).ha = true ∧ (s.pwm.valves[v]).lowAtA + 2000 ≤ s.clk)
      0 (gated .open_)) ∧
    -- clause 6
    ((fun (v : Fin 8) (s : State) =>
      (s.gates v).hb = true ∧ (s.pwm.valves[v]).lowAtB + 2000 ≤ s.clk)
      0 (gated .closed)) ∧
    -- clause 7
    ((fun (g : Fin 3) (s : State) =>
      s.coreUp = true ∧ bit (s.reg Reg.fltCfg) g.val = true ∧ s.pwm.fltLatch.getLsbD g.val = false ∧ s.Calm)
      2 (upWith [(Reg.fltCfg, 4)] .ready)) ∧
    -- clause 8, off
    ((fun (g : Fin 3) (active : Bool) (s : State) =>
      (s.coreUp = false ∨ active = false ∨ bit (s.reg Reg.fltCfg) g.val = false ∨ s.pwm.fltLatch.getLsbD g.val = true) ∧ active = false)
      2 false up) ∧
    -- clause 8, disabled
    ((fun (g : Fin 3) (active : Bool) (s : State) =>
      (s.coreUp = false ∨ active = false ∨ bit (s.reg Reg.fltCfg) g.val = false ∨ s.pwm.fltLatch.getLsbD g.val = true) ∧ bit (s.reg Reg.fltCfg) g.val = false)
      2 true (upWith [(Reg.fltCfg, 0)])) ∧
    -- clause 8, latched
    ((fun (g : Fin 3) (active : Bool) (s : State) =>
      (s.coreUp = false ∨ active = false ∨ bit (s.reg Reg.fltCfg) g.val = false ∨ s.pwm.fltLatch.getLsbD g.val = true) ∧ s.pwm.fltLatch.getLsbD g.val = true)
      2 true { upWith [(Reg.fltCfg, 4)] with pwm := { up.pwm with fltLatch := 4 } }) := by
  refine ⟨?_, ?_, ?_, ?_, ?_, ?_, ?_, ?_, ?_, ?_, ?_, ?_⟩ <;> dsimp only <;> repeat' (first | refine And.intro ?_ ?_ | decide +kernel | constructor)

theorem witness_ValvesRunToTheirEnds :
    -- clause 1
    ((fun (v : Fin 8) (e : ValveEnd) (level : Bool) (s : State) =>
      (s.coreUp = false ∨ s.domainOn (48 + v.val) = false ∨ (s.pwm.valves[v]).limit e = level ∨ filterBars (s.reg (Reg.mvLimf v)) ((s.pwm.valves[v]).limClk e) s.clk = true))
      7 .open_ true (upWithout 55)) ∧
    -- clause 2, disabled
    ((fun (v : Fin 8) (e : ValveEnd) (level : Bool) (s : State) =>
      s.coreUp = true ∧ s.domainOn (48 + v.val) = true ∧ (s.pwm.valves[v]).limit e ≠ level ∧ filterBars (s.reg (Reg.mvLimf v)) ((s.pwm.valves[v]).limClk e) s.clk = false ∧ s.limEnabled v e = false)
      7 .open_ true (upWith [(Reg.mvCfg 7, 1)])) ∧
    -- clause 2, off
    ((fun (v : Fin 8) (e : ValveEnd) (level : Bool) (s : State) =>
      s.coreUp = true ∧ s.domainOn (48 + v.val) = true ∧ (s.pwm.valves[v]).limit e ≠ level ∧ filterBars (s.reg (Reg.mvLimf v)) ((s.pwm.valves[v]).limClk e) s.clk = false ∧ (s.valveMode v).runs = false)
      7 .open_ true (upWith [(Reg.mvCfg 7, 0x40)])) ∧
    -- clause 2, end
    ((fun (v : Fin 8) (e : ValveEnd) (level : Bool) (s : State) =>
      s.coreUp = true ∧ s.domainOn (48 + v.val) = true ∧ (s.pwm.valves[v]).limit e ≠ level ∧ filterBars (s.reg (Reg.mvLimf v)) ((s.pwm.valves[v]).limClk e) s.clk = false ∧ (s.pwm.valves[v]).run.isSome = true ∧ (s.modValve v fun x => x.setLimit e level s.clk).limAsserted v e = true)
      0 .open_ true (upValve 0 { run := some { target := .open_, why := .manual, startClk := 0, timedEnd := none }, bridge := .running, manual := .toEnd .open_, demand := .run .open_ .manual })) ∧
    -- clause 2, wrong
    ((fun (v : Fin 8) (e : ValveEnd) (level : Bool) (s : State) =>
      s.coreUp = true ∧ s.domainOn (48 + v.val) = true ∧ (s.pwm.valves[v]).limit e ≠ level ∧ filterBars (s.reg (Reg.mvLimf v)) ((s.pwm.valves[v]).limClk e) s.clk = false ∧ (s.pwm.valves[v]).run.isSome = true ∧ (s.modValve v fun x => x.setLimit e level s.clk).limAsserted v e = true)
      0 .closed true (upValve 0 { run := some { target := .open_, why := .manual, startClk := 0, timedEnd := none }, bridge := .running, manual := .toEnd .open_, demand := .run .open_ .manual, trans := 7 })) ∧
    -- clause 2, both
    ((fun (v : Fin 8) (e : ValveEnd) (level : Bool) (s : State) =>
      s.coreUp = true ∧ s.domainOn (48 + v.val) = true ∧ (s.pwm.valves[v]).limit e ≠ level ∧ filterBars (s.reg (Reg.mvLimf v)) ((s.pwm.valves[v]).limClk e) s.clk = false ∧ (s.modValve v fun x => x.setLimit e level s.clk).limAsserted v .open_ = true ∧ (s.modValve v fun x => x.setLimit e level s.clk).limAsserted v .closed = true)
      0 .closed true (upValve 0 { run := some { target := .open_, why := .manual, startClk := 0, timedEnd := none }, bridge := .running, manual := .toEnd .open_, demand := .run .open_ .manual, limO := true })) ∧
    -- clause 2, chatter
    ((fun (v : Fin 8) (e : ValveEnd) (level : Bool) (s : State) =>
      s.coreUp = true ∧ s.domainOn (48 + v.val) = true ∧ (s.pwm.valves[v]).limit e ≠ level ∧ filterBars (s.reg (Reg.mvLimf v)) ((s.pwm.valves[v]).limClk e) s.clk = false ∧ fld (s.reg (Reg.mvCfg v)) 15 4 ≤ 15)
      0 .closed true (upValve 0 { run := some { target := .open_, why := .manual, startClk := 0, timedEnd := none }, bridge := .running, manual := .toEnd .open_, demand := .run .open_ .manual, trans := 15 })) ∧
    -- clause 3
    ((fun (v : Fin 8) (s : State) =>
      (∀ r ∈ (s.pwm.valves[v]).run, r.timedEnd.any s.reached = false))
      0 (upValve 0 { run := some { target := .open_, why := .manual, startClk := 0, timedEnd := none }, bridge := .running, manual := .toEnd .open_, demand := .run .open_ .manual })) ∧
    -- clause 4
    ((fun (v : Fin 8) (r : Run) (at_ : ChainTime) (s : State) =>
      (s.pwm.valves[v]).run = some r ∧ r.timedEnd = some at_ ∧ s.reached at_ = true)
      0 { target := .open_, why := .manual, startClk := 0, timedEnd := some 1000000 } 1000000 (upValve 0 { run := some { target := .open_, why := .manual, startClk := 0, timedEnd := some 1000000 }, bridge := .running, manual := .toEnd .open_, demand := .run .open_ .manual })) ∧
    -- clause 5
    ((fun (v : Fin 8) (s : State) =>
      (∀ r ∈ (s.pwm.valves[v]).run, s.limEnabled v r.target = false ∨ r.why = .handover ∨ r.why = .limit ∨ s.clk < r.startClk + 1000 * s.regN (Reg.mvTmax v)))
      0 (upValve 0 { run := some { target := .open_, why := .manual, startClk := 0, timedEnd := none }, bridge := .running, manual := .toEnd .open_, demand := .run .open_ .manual })) ∧
    -- clause 6
    ((fun (v : Fin 8) (r : Run) (s : State) =>
      (s.pwm.valves[v]).run = some r ∧ s.limEnabled v r.target = true ∧ r.why ≠ .handover ∧ r.why ≠ .limit ∧ r.startClk + 1000 * s.regN (Reg.mvTmax v) ≤ s.clk)
      0 { target := .open_, why := .manual, startClk := 0, timedEnd := none } { (upValve 0 { run := some { target := .open_, why := .manual, startClk := 0, timedEnd := none }, bridge := .running, manual := .toEnd .open_, demand := .run .open_ .manual }) with clk := 70000000 }) ∧
    -- clause 7
    ((fun (v : Fin 8) (s : State) =>
      (∀ due ∈ (s.pwm.valves[v]).brakeUntil, s.clk < due))
      0 (upValve 0 { bridge := .brake, brakeUntil := some 2000001 })) ∧
    -- clause 8
    ((fun (v : Fin 8) (due : Nat) (s : State) =>
      (s.pwm.valves[v]).brakeUntil = some due ∧ due ≤ s.clk)
      0 2000000 (upValve 0 { bridge := .brake, brakeUntil := some 2000000 })) ∧
    -- clause 9
    ((fun (s : State) =>
      s.clk < s.pwm.posDue)
      { up with pwm := { posDue := 2000001 } }) ∧
    -- clause 10
    ((fun (s : State) =>
      s.pwm.posDue ≤ s.clk)
      up) ∧
    -- clause 11, top
    ((fun (v : Fin 8) (s : State) =>
      (s.pwm.valves[v]).bridge = .running ∧ (s.pwm.slices[s.driver v]).running = true ∧ s.lat (chV v) ≠ 0)
      0 (let u := upValve 0 { run := some { target := .open_, why := .manual, startClk := 0, timedEnd := none }, bridge := .running, manual := .toEnd .open_, demand := .run .open_ .manual, pos := 1000 }; { u with pwm := { u.pwm with slices := upd u.pwm.slices 0 fun w => { w with running := true } } })) := by
  refine ⟨?_, ?_, ?_, ?_, ?_, ?_, ?_, ?_, ?_, ?_, ?_, ?_, ?_, ?_, ?_, ?_⟩ <;> dsimp only <;> repeat' (first | refine And.intro ?_ ?_ | decide +kernel | constructor)

theorem witness_LoopsSampleAndWrite :
    -- clause 1
    ((fun (l : Fin 8) (s : State) =>
      s.sampleDue l = true)
      0 (upWith [(Reg.loop 0 0, 1), (Reg.loop 0 1, 10), (Reg.loop 0 5, 0xFFFFF)] .ready)) ∧
    -- clause 2
    ((fun (l : Fin 8) (o : LoopOutput) (rest : List LoopOutput) (s : State) =>
      (s.pilot.loops[l]).writes = o :: rest ∧ o.due ≤ s.clk)
      7 { due := 2000000, u := 524288, out := 0 } [] { upIn .ready with pilot := { up.pilot with loops := upd up.pilot.loops 7 fun y => { y with writes := [{ due := 2000000, u := 524288, out := 0 }] } } }) ∧
    -- clause 3, 0
    ((fun (l : Fin 8) (o : LoopOutput) (rest : List LoopOutput) (k : Fin 4) (s : State) =>
      (s.pilot.loops[l]).writes = o :: rest ∧ o.due ≤ s.clk ∧ o.out = k.val + 1)
      7 { due := 2000000, u := 524288, out := 1 } [] 0 { upIn .ready with pilot := { up.pilot with loops := upd up.pilot.loops 7 fun y => { y with writes := [{ due := 2000000, u := 524288, out := 1 }] } } }) ∧
    -- clause 3, 3
    ((fun (l : Fin 8) (o : LoopOutput) (rest : List LoopOutput) (k : Fin 4) (s : State) =>
      (s.pilot.loops[l]).writes = o :: rest ∧ o.due ≤ s.clk ∧ o.out = k.val + 1)
      7 { due := 2000000, u := 524288, out := 4 } [] 3 { upIn .ready with pilot := { up.pilot with loops := upd up.pilot.loops 7 fun y => { y with writes := [{ due := 2000000, u := 524288, out := 4 }] } } }) ∧
    -- clause 4, 0
    ((fun (l : Fin 8) (o : LoopOutput) (rest : List LoopOutput) (v : Fin 8) (s : State) =>
      (s.pilot.loops[l]).writes = o :: rest ∧ o.due ≤ s.clk ∧ o.out = v.val + 5 ∧ s.Calm)
      7 { due := 2000000, u := 524288, out := 5 } [] 0 { upIn .ready with pilot := { up.pilot with loops := upd up.pilot.loops 7 fun y => { y with writes := [{ due := 2000000, u := 524288, out := 5 }] } } }) ∧
    -- clause 4, 7
    ((fun (l : Fin 8) (o : LoopOutput) (rest : List LoopOutput) (v : Fin 8) (s : State) =>
      (s.pilot.loops[l]).writes = o :: rest ∧ o.due ≤ s.clk ∧ o.out = v.val + 5 ∧ s.Calm)
      7 { due := 2000000, u := 524288, out := 12 } [] 7 { upIn .ready with pilot := { up.pilot with loops := upd up.pilot.loops 7 fun y => { y with writes := [{ due := 2000000, u := 524288, out := 12 }] } } }) := by
  refine ⟨?_, ?_, ?_, ?_, ?_, ?_⟩ <;> dsimp only <;> repeat' (first | refine And.intro ?_ ?_ | decide +kernel | constructor)

theorem witness_ConversionsAndCaptures :
    -- clause 1, ext
    ((fun (_ vref : Nat) (n : Fin 12) (s : State) =>
      s.coreUp = true ∧ s.domainOn 108 = true ∧ nextAin (bit (s.reg Reg.ainCfg)) s.pilot.ainNext = some n ∧ vref ≠ 0)
      1000000 5000000 11 (upWith [(Reg.ainCfg, 0x800800)])) ∧
    -- clause 1, int
    ((fun (_ vref : Nat) (n : Fin 12) (s : State) =>
      s.coreUp = true ∧ s.domainOn 108 = true ∧ nextAin (bit (s.reg Reg.ainCfg)) s.pilot.ainNext = some n ∧ vref ≠ 0)
      1000000 5000000 0 (upWith [(Reg.ainCfg, 1)])) ∧
    -- clause 2
    ((fun (_ : Nat) (n : Fin 12) (s : State) =>
      s.coreUp = true ∧ s.domainOn 108 = true ∧ nextAin (bit (s.reg Reg.ainCfg)) s.pilot.ainNext = some n)
      1000000 0 (upWith [(Reg.ainCfg, 1)])) ∧
    -- clause 5
    ((fun (b : Fin 4) (s : State) =>
      s.captureDue b = true ∧ (s.pilot.traces[b]).st = .fill ∧ (s.pilot.traces[b]).forced = false ∧ (s.pilot.traces[b]).triggered = false)
      3 { up with pilot := { up.pilot with traces := upd up.pilot.traces 3 fun x => { x with st := .fill, cfg := 0x200, interval := 100, armedAt := 999900, pre := 2 } } }) ∧
    -- clause 6, waits
    ((fun (b : Fin 4) (s : State) =>
      s.captureDue b = true ∧ (s.pilot.traces[b]).st = .wait ∧ (s.pilot.traces[b]).forced = false ∧ (s.pilot.traces[b]).triggered = false ∧ (s.pilot.traces[b]).triggers (s.nodeValue (fld (s.pilot.traces[b]).cfg 0 6)) (s.sourceLoop (s.pilot.traces[b])) = false)
      3 { up with pilot := { up.pilot with traces := upd up.pilot.traces 3 fun x => { x with st := .wait, cfg := 0x200, interval := 100, armedAt := 999900, pre := 2, entries := [1, 2] } } }) ∧
    -- clause 6, hit
    ((fun (b : Fin 4) (s : State) =>
      s.captureDue b = true ∧ (s.pilot.traces[b]).st = .wait ∧ (s.pilot.traces[b]).forced = false ∧ (s.pilot.traces[b]).triggered = false ∧ (s.pilot.traces[b]).triggers (s.nodeValue (fld (s.pilot.traces[b]).cfg 0 6)) (s.sourceLoop (s.pilot.traces[b])) = true)
      3 { up with pilot := { up.pilot with traces := upd up.pilot.traces 3 fun x => { x with st := .wait, interval := 100, armedAt := 999900, pre := 2, entries := [1, 2], prev := some 5, cfg := 0x1200 } } }) ∧
    -- clause 8
    ((fun (b : Fin 4) (s : State) =>
      s.captureDue b = true ∧ (s.pilot.traces[b]).st = .post)
      3 { up with pilot := { up.pilot with traces := upd up.pilot.traces 3 fun x => { x with st := .post, cfg := 0x200, interval := 100, armedAt := 999900, pre := 2, left := 1 } } }) ∧
    -- clause 3
    ((fun (_ _ : Nat) (s : State) =>
      (s.coreUp = false ∨ s.domainOn 108 = false ∨ nextAin (bit (s.reg Reg.ainCfg)) s.pilot.ainNext = none))
      5 5 up) ∧
    -- clause 4
    ((fun (b : Fin 4) (s : State) =>
      s.captureDue b = false)
      3 up) ∧
    -- clause 6, follower
    ((fun (b : Fin 4) (s : State) =>
      s.captureDue b = true ∧ (s.pilot.traces[b]).st = .wait ∧ (s.pilot.traces[b]).forced = false ∧ (s.pilot.traces[b]).triggered = false ∧ (s.pilot.traces[b]).triggers (s.nodeValue (fld (s.pilot.traces[b]).cfg 0 6)) (s.sourceLoop (s.pilot.traces[b])) = true ∧ (s.pilot.traces[b]).entries.length = (s.pilot.traces[b]).pre ∧ (s.pilot.traces[0]).st = .wait)
      3 { up with pilot := { up.pilot with traces := upd (upd up.pilot.traces 0 fun x => { x with st := .wait }) 3 fun x => { x with st := .wait, interval := 100, armedAt := 999900, pre := 2, entries := [1, 2], prev := some 5, cfg := 0x1200 } } }) ∧
    -- clause 7, fill
    ((fun (b : Fin 4) (s : State) =>
      s.captureDue b = true ∧ (s.pilot.traces[b]).st = .fill ∨ (s.pilot.traces[b]).st = .wait ∧ (s.pilot.traces[b]).forced = true ∧ (s.pilot.traces[b]).triggered = false ∧ (s.pilot.traces[b]).st = .fill)
      3 { up with pilot := { up.pilot with traces := upd up.pilot.traces 3 fun x => { x with st := .fill, cfg := 0x200, interval := 100, armedAt := 999900, pre := 2, forced := true } } }) ∧
    -- clause 7, wait
    ((fun (b : Fin 4) (s : State) =>
      s.captureDue b = true ∧ (s.pilot.traces[b]).st = .fill ∨ (s.pilot.traces[b]).st = .wait ∧ (s.pilot.traces[b]).forced = true ∧ (s.pilot.traces[b]).triggered = false ∧ (s.pilot.traces[b]).st = .wait)
      3 { up with pilot := { up.pilot with traces := upd up.pilot.traces 3 fun x => { x with st := .wait, cfg := 0x200, interval := 100, armedAt := 999900, pre := 2, entries := [1, 2], forced := true } } }) ∧
    -- clause 8, last
    ((fun (b : Fin 4) (s : State) =>
      s.captureDue b = true ∧ (s.pilot.traces[b]).st = .post ∧ (s.pilot.traces[b]).entries.length + (s.pilot.traces[b]).left = 2048)
      3 { up with pilot := { up.pilot with traces := upd up.pilot.traces 3 fun x => { x with st := .post, cfg := 0x200, interval := 100, armedAt := 999900, pre := 2, left := 1, entries := List.replicate 2047 7 } } }) := by
  refine ⟨?_, ?_, ?_, ?_, ?_, ?_, ?_, ?_, ?_, ?_, ?_, ?_, ?_⟩ <;> dsimp only <;> repeat' (first | refine And.intro ?_ ?_ | decide +kernel | constructor)

theorem witness_KillTurnsEveryOutputOff :
    -- clause 1, dn
    ((fun (p : Port) (s : State) =>
      s.TakesIn p ∧ s.unit.kill = false ∧ s.Calm ∧ s.phase = .running ∧ p = s.chain.upPort ∧ s.unit.st.armed = true)
      .bow (upIn .underway)) ∧
    -- clause 1, up
    ((fun (p : Port) (s : State) =>
      s.TakesIn p ∧ s.unit.kill = false ∧ s.Calm ∧ s.phase = .running ∧ p ≠ s.chain.upPort ∧ s.unit.st.armed = false)
      .stern (upIn .moored)) := by
  refine ⟨?_, ?_⟩ <;> dsimp only <;> repeat' (first | refine And.intro ?_ ?_ | decide +kernel | constructor)

theorem witness_SafetyInputsAct :
    -- clause 1
    ((fun (p : Fin 4) (ch : PairChannel) (level _ : Bool) (s : State) =>
      ((s.safety.pairs[p]).level ch = level ∨ (s.safety.pairs[p]).bars ch s.clk = true) ∧ (s.safety.pairs[p]).bars ch s.clk = true)
      3 .a true false { upPair 3 { levelA := false, clkA := some 1999999 } 0x641 with clk := 2000000 }) ∧
    -- clause 2
    ((fun (p : Fin 4) (ch : PairChannel) (level _ : Bool) (s : State) =>
      (s.safety.pairs[p]).level ch ≠ level ∧ (s.safety.pairs[p]).bars ch s.clk = false ∧ (s.safety.pairs[p]).active = false)
      3 .b true false up) ∧
    -- clause 3
    ((fun (p : Fin 4) (ch : PairChannel) (level both : Bool) (s : State) =>
      s.coreUp = true ∧ (s.safety.pairs[p]).level ch ≠ level ∧ (s.safety.pairs[p]).bars ch s.clk = false ∧ (s.safety.pairs[p]).active = true ∧ s.discrepDue p = false ∧ s.effStop p = false ∧ s.pairFunc p = .generic ∧ s.wouldStop p ((s.safety.pairs[p]).changed ch level both s.clk) = true)
      3 .a false false (upPair 3 { levelA := true, levelB := true, active := true } 0x641)) ∧
    -- clause 4
    ((fun (p : Fin 4) (ch : PairChannel) (level both : Bool) (s : State) =>
      s.coreUp = true ∧ (s.safety.pairs[p]).level ch ≠ level ∧ (s.safety.pairs[p]).bars ch s.clk = false ∧ (s.safety.pairs[p]).active = true ∧ s.discrepDue p = false ∧ s.effStop p = false ∧ s.pairFunc p = .stop ∧ s.Calm ∧ s.phase = .running ∧ s.wouldStop p ((s.safety.pairs[p]).changed ch level both s.clk) = true)
      3 .a false true (upPair 3 { levelA := true, levelB := true, active := true } 0x643 .underway)) ∧
    -- clause 5, fold
    ((fun (p : Fin 4) (ch : PairChannel) (level both : Bool) (s : State) =>
      s.coreUp = true ∧ (s.safety.pairs[p]).level ch ≠ level ∧ (s.safety.pairs[p]).bars ch s.clk = false ∧ (s.safety.pairs[p]).active = true ∧ s.discrepDue p = false ∧ s.effStop p = false ∧ (s.pairFunc p = .fold ∨ s.pairFunc p = .presence) ∧ s.Calm ∧ s.wouldStop p ((s.safety.pairs[p]).changed ch level both s.clk) = true ∧ s.inMask p 3 = true)
      3 .a false true { upPair 3 { levelA := true, levelB := true, active := true } 0x645 .underway with regs := [(Reg.sfpCfg 3, 0x645), (Reg.sfpMask0 3, 0x9)] }) ∧
    -- clause 5, presence
    ((fun (p : Fin 4) (ch : PairChannel) (level both : Bool) (s : State) =>
      s.coreUp = true ∧ (s.safety.pairs[p]).level ch ≠ level ∧ (s.safety.pairs[p]).bars ch s.clk = false ∧ (s.safety.pairs[p]).active = true ∧ s.discrepDue p = false ∧ s.effStop p = false ∧ (s.pairFunc p = .fold ∨ s.pairFunc p = .presence) ∧ s.Calm ∧ s.wouldStop p ((s.safety.pairs[p]).changed ch level both s.clk) = true ∧ s.inMask p 39 = true)
      0 .b false false { upPair 0 { levelA := true, levelB := true, active := true } 0x647 with regs := [(Reg.sfpCfg 0, 0x647), (Reg.sfpMask1 0, 0x8000)] }) ∧
    -- clause 6
    ((fun (p : Fin 4) (ch : PairChannel) (level both : Bool) (s : State) =>
      s.coreUp = true ∧ (s.safety.pairs[p]).level ch ≠ level ∧ (s.safety.pairs[p]).bars ch s.clk = false ∧ (s.safety.pairs[p]).active = true ∧ s.discrepDue p = false ∧ s.effStop p = true ∧ s.Calm ∧ s.wouldStop p ((s.safety.pairs[p]).changed ch level both s.clk) = false)
      2 .b true false (upPair 2 { levelA := true, levelB := false, active := true } 0x643)) ∧
    -- clause 7
    ((fun (p : Fin 4) (ch : PairChannel) (level _ : Bool) (s : State) =>
      s.coreUp = true ∧ (s.safety.pairs[p]).level ch ≠ level ∧ (s.safety.pairs[p]).bars ch s.clk = false ∧ s.discrepDue p = true)
      1 .b true false (upPair 1 { levelA := true, active := true, onset := some 1899000, onsetTd := 100 } 0x643)) := by
  refine ⟨?_, ?_, ?_, ?_, ?_, ?_, ?_, ?_⟩ <;> dsimp only <;> repeat' (first | refine And.intro ?_ ?_ | decide +kernel | constructor)

theorem witness_DiscrepanciesEndInSafe :
    -- clause 1
    ((fun (p : Fin 4) (s : State) =>
      s.coreUp = true ∧ s.discrepDue p = true ∧ s.pairFunc p = .generic)
      1 (upPair 1 { levelA := true, active := true, onset := some 1899000, onsetTd := 100 } 0x641)) ∧
    -- clause 2, stop
    ((fun (p : Fin 4) (s : State) =>
      s.phase = .running ∧ s.discrepDue p = true ∧ s.pairFunc p ≠ .generic ∧ s.power.handover = none)
      1 (upPair 1 { levelA := true, active := true, onset := some 1899000, onsetTd := 100 } 0x643 .underway)) ∧
    -- clause 2, dock
    ((fun (p : Fin 4) (s : State) =>
      s.phase = .running ∧ s.discrepDue p = true ∧ s.pairFunc p ≠ .generic ∧ s.power.handover = none ∧ s.unit.st = .drydock)
      1 (upPair 1 { levelA := true, active := true, onset := some 1899000, onsetTd := 100 } 0x647 .drydock)) ∧
    -- clause 3
    ((fun (p : Fin 4) (at_ : Nat) (s : State) =>
      (s.safety.pairs[p]).active = true ∧ (s.safety.pairs[p]).run10 = false ∧ (s.safety.pairs[p]).runSince = some at_ ∧ at_ + 10000 ≤ s.clk)
      1 1990000 (upPair 1 { levelA := true, levelB := true, active := true, runSince := some 1990000 } 0x643)) := by
  refine ⟨?_, ?_, ?_, ?_⟩ <;> dsimp only <;> repeat' (first | refine And.intro ?_ ?_ | decide +kernel | constructor)

theorem witness_KillAndResume :
    -- clause 1, chain
    ((fun (ln : LineHdr) (s : State) =>
      s.Hears ln ∧ s.Lets ln .write .always)
      ln (upIn .underway)) ∧
    -- clause 1, console
    ((fun (ln : LineHdr) (s : State) =>
      s.Hears ln ∧ s.Lets ln .write .always)
      con up) ∧
    -- clause 2, safe
    ((fun (ln : LineHdr) (s : State) =>
      s.Hears ln ∧ s.Lets ln .write .moorOrSafe ∧ s.Calm ∧ s.resumeFails = false ∧ s.unit.st = .safe ∧ s.unit.safe = 4)
      ln { upPair 1 { levelA := true, levelB := true, active := true, latch := true, discrep := true, run10 := true } 0x643 with unit := { st := .safe, safe := 4, kill := true } }) ∧
    -- clause 2, moored
    ((fun (ln : LineHdr) (s : State) =>
      s.Hears ln ∧ s.Lets ln .write .moorOrSafe ∧ s.Calm ∧ s.resumeFails = false ∧ s.unit.st ≠ .safe)
      ln { up with unit := { kill := true } }) ∧
    -- clause 3, latch
    ((fun (ln : LineHdr) (p : Fin 4) (s : State) =>
      s.Hears ln ∧ s.Lets ln .write .moorOrSafe ∧ ((s.safety.pairs[p]).latch = true ∨ (s.safety.pairs[p]).discrep = true) ∧ (s.safety.pairs[p]).run10 = false)
      ln 3 (upPair 3 { active := true, latch := true } 0x643 .moored)) ∧
    -- clause 3, discrep
    ((fun (ln : LineHdr) (p : Fin 4) (s : State) =>
      s.Hears ln ∧ s.Lets ln .write .moorOrSafe ∧ ((s.safety.pairs[p]).latch = true ∨ (s.safety.pairs[p]).discrep = true) ∧ (s.safety.pairs[p]).run10 = false)
      ln 0 (upPair 0 { active := true, discrep := true } 0x643 .moored)) ∧
    -- clause 4
    ((fun (p : Port) (s : State) =>
      s.TakesIn p ∧ s.unit.kill = true)
      .stern { up with unit := { kill := true } }) := by
  refine ⟨?_, ?_, ?_, ?_, ?_, ?_, ?_⟩ <;> dsimp only <;> repeat' (first | refine And.intro ?_ ?_ | decide +kernel | constructor)

theorem witness_MustersAreSampled :
    -- clause 1
    ((fun (m : MusterSlot) (s : State) =>
      s.live = true ∧ s.manil.musters = [m] ∧ m.sample = none ∧ s.reached m.t = true ∧ s.manil.held = [.muster m.t none] ∧ s.chain.released = false)
      { t := 1000000, paths := [0x0500], sample := none } { up with manil := { musters := [{ t := 1000000, paths := [0x0500], sample := none }], held := [.muster 1000000 none] } }) ∧
    -- clause 2
    ((fun (s : State) =>
      s.reached (after 1000000 60000001) = true)
      { up with time := 70000000, manil := { musters := [{ t := 1000000, paths := [], sample := some (.ok []) }] } }) ∧
    -- clause 3, near
    ((fun (adr : AddrForm) (t : ChainTime) (paths : List RegAddr) (s : State) =>
      s.Hears { src := .chain, addr := adr } ∧ s.Lets { src := .chain, addr := adr } .write .always ∧ paths.length ≤ 4 ∧ (∀ a ∈ paths, (pathInfo a.toNat).isSome = true) ∧ s.clocks.mode ≠ .unset ∧ 1000 ≤ (t - s.time).toNat ∧ (t - s.time).toNat ≤ 10000000 ∧ s.manil.musters.length < 4 ∧ (∀ m ∈ s.manil.musters, m.t ≠ t))
      .all 1001000 [0x0500] up) ∧
    -- clause 3, far
    ((fun (adr : AddrForm) (t : ChainTime) (paths : List RegAddr) (s : State) =>
      s.Hears { src := .chain, addr := adr } ∧ s.Lets { src := .chain, addr := adr } .write .always ∧ paths.length ≤ 4 ∧ (∀ a ∈ paths, (pathInfo a.toNat).isSome = true) ∧ s.clocks.mode ≠ .unset ∧ 1000 ≤ (t - s.time).toNat ∧ (t - s.time).toNat ≤ 10000000 ∧ s.manil.musters.length < 4 ∧ (∀ m ∈ s.manil.musters, m.t ≠ t))
      (.unit 1) 11000000 [] { up with manil := { musters := List.replicate 3 { t := 1000000, paths := [0x0500], sample := none } } }) ∧
    -- clause 4, oldest
    ((fun (adr : AddrForm) (t : ChainTime) (paths : List RegAddr) (s : State) =>
      s.Hears { src := .chain, addr := adr } ∧ s.Lets { src := .chain, addr := adr } .write .always ∧ paths.length ≤ 4 ∧ (∀ a ∈ paths, (pathInfo a.toNat).isSome = true) ∧ s.clocks.mode ≠ .unset ∧ 1000 ≤ (t - s.time).toNat ∧ (t - s.time).toNat ≤ 10000000 ∧ s.manil.musters.length = 4 ∧ (∀ m ∈ s.manil.musters, m.t ≠ t) ∧ (s.manil.musters.find? fun x => x.sample.isSome).isSome = true)
      (.unit 1) 11000000 [] { up with manil := { musters := List.replicate 3 { t := 1000000, paths := [0x0500], sample := none } ++ [{ t := 900000, paths := [], sample := some (.ok []) }] } }) ∧
    -- clause 4, full
    ((fun (adr : AddrForm) (t : ChainTime) (paths : List RegAddr) (s : State) =>
      s.Hears { src := .chain, addr := adr } ∧ s.Lets { src := .chain, addr := adr } .write .always ∧ paths.length ≤ 4 ∧ (∀ a ∈ paths, (pathInfo a.toNat).isSome = true) ∧ s.clocks.mode ≠ .unset ∧ 1000 ≤ (t - s.time).toNat ∧ (t - s.time).toNat ≤ 10000000 ∧ s.manil.musters.length = 4 ∧ (∀ m ∈ s.manil.musters, m.t ≠ t) ∧ s.manil.musters.find? (fun x => x.sample.isSome) = none)
      (.unit 1) 11000000 [] { up with manil := { musters := List.replicate 4 { t := 1000000, paths := [0x0500], sample := none } } }) ∧
    -- clause 5
    ((fun (adr : AddrForm) (m : MusterSlot) (text : List Tok) (s : State) =>
      s.Hears { src := .chain, addr := adr } ∧ s.Lets { src := .chain, addr := adr } .write .always ∧ s.manil.musters.find? (fun x => decide (x.t = m.t) && !s.musterOver x) = some m ∧ m.sample = some (.ok text))
      (.unit 1) { t := 1000000, paths := [], sample := some (.ok [.num 5]) } [.num 5] { up with manil := { musters := [{ t := 1000000, paths := [], sample := some (.ok [.num 5]) }] } }) := by
  refine ⟨?_, ?_, ?_, ?_, ?_, ?_, ?_⟩ <;> dsimp only <;> repeat' (first | refine And.intro ?_ ?_ | exact List.forall_mem_nil _ | refine List.forall_mem_cons.2 ⟨?_, ?_⟩ | refine And.intro ?_ ?_ | decide +kernel | constructor)

theorem witness_TheRecorderKeepsTime :
    -- clause 1
    ((fun (s : State) =>
      s.recorder.queue = [])
      up) ∧
    -- clause 2
    ((fun (x : Record) (rest : List Record) (s : State) =>
      s.recorder.queue = x :: rest)
      { seq := 4, optime := 0, pcycle := 0, code := 0x41, source := 63, rep := 1, data := 0 } [] { up with recorder := { queue := [{ seq := 4, optime := 0, pcycle := 0, code := 0x41, source := 63, rep := 1, data := 0 }] }, power := { up.power with handover := some { hoAct := 0, hoTime := 5, started := 0, inDrydock := false } } }) ∧
    -- clause 3
    ((fun (s : State) =>
      s.recorder.lost ≠ 0 ∧ s.recorder.queue.length < 32)
      { up with recorder := { lost := 3 } }) ∧
    -- clause 4
    ((fun (s : State) =>
      56250000 ≤ s.recorder.optUs ∧ s.recorder.optime = 0xFFFFFE)
      { up with recorder := { optUs := 56250000, optime := 0xFFFFFE } }) ∧
    -- clause 5
    ((fun (w : Nat) (s : State) =>
      s.recorder.window = some w ∧ cd08Cycle (w + 60000000) ≤ cd08Cycle s.cdUs)
      0 { up with cd08 := 6000000000000000, recorder := { window := some 0 } }) ∧
    -- clause 6
    ((fun (ln : LineHdr) (s : State) =>
      s.Hears ln ∧ s.Lets ln .write .moorOrSafe ∧ s.authorised ln.src = true)
      ln upGranted) := by
  refine ⟨?_, ?_, ?_, ?_, ?_, ?_⟩ <;> dsimp only <;> repeat' (first | refine And.intro ?_ ?_ | decide +kernel | constructor)

theorem witness_GrantsAndTheCalendarEnd :
    -- clause 1
    ((fun (src : Source) (n : ChainTime) (due : Nat) (s : State) =>
      (s.owner.of src).nonce = some (n, due) ∧ due ≤ s.clk)
      .console 9 2000000 { up with owner := { console := { nonce := some (9, 2000000) } } }) ∧
    -- clause 2
    ((fun (src : Source) (due : Nat) (s : State) =>
      (s.owner.of src).grant = some due ∧ due ≤ s.clk)
      .console 2000000 { up with owner := { console := { grant := some 2000000 } } }) ∧
    -- clause 3
    ((fun (src : Source) (due : Nat) (s : State) =>
      (s.owner.of src).lockout = some due ∧ due ≤ s.clk ∧ s.phase = .running)
      .console 2000000 { up with owner := { console := { lockout := some 2000000 } } }) ∧
    -- clause 4
    ((fun (s : State) =>
      s.coreUp = true ∧ s.cal.days.toNat = 146096 ∧ s.cal.secs.toNat = 86399 ∧ 1000000 ≤ s.cal.sub ∧ s.cal.ended = false)
      { up with cal := { set := true, days := 146096, secs := 86399, sub := 1000000 } }) := by
  refine ⟨?_, ?_, ?_, ?_⟩ <;> dsimp only <;> repeat' (first | refine And.intro ?_ ?_ | decide +kernel | constructor)

theorem witness_AuthorisationByChallenge :
    -- clause 1
    ((fun (ln : LineHdr) (key : Vector Word 6) (s : State) =>
      s.Hears ln ∧ s.Lets ln .write .always ∧ (s.owner.of ln.src).lockout = none ∧ s.owner.key = some key)
      ln (Vector.replicate 6 0x123456) { up with owner := { key := some (Vector.replicate 6 0x123456) } }) ∧
    -- clause 2
    ((fun (ln : LineHdr) (key : Vector Word 6) (n : ChainTime) (due : Nat) (s : State) =>
      s.Hears ln ∧ s.Lets ln .write .always ∧ (s.owner.of ln.src).lockout = none ∧ s.owner.key = some key ∧ (s.owner.of ln.src).nonce = some (n, due) ∧ s.clk < due)
      ln (Vector.replicate 6 0x123456) 9 2000001 { up with owner := { key := some (Vector.replicate 6 0x123456), chain := { nonce := some (9, 2000001) } } }) ∧
    -- clause 3, counted
    ((fun (ln : LineHdr) (key : Vector Word 6) (response : List Byte) (s : State) =>
      s.Hears ln ∧ s.Lets ln .write .always ∧ (s.owner.of ln.src).lockout = none ∧ s.owner.key = some key ∧ response.length = 6 ∧ s.responseHolds ln.src response = false ∧ (s.owner.of ln.src).fails < 2)
      ln (Vector.replicate 6 0x123456) [0, 0, 0, 0, 0, 0] { up with owner := { key := some (Vector.replicate 6 0x123456), chain := { fails := 1 } } }) ∧
    -- clause 3, locked
    ((fun (ln : LineHdr) (key : Vector Word 6) (response : List Byte) (s : State) =>
      s.Hears ln ∧ s.Lets ln .write .always ∧ (s.owner.of ln.src).lockout = none ∧ s.owner.key = some key ∧ response.length = 6 ∧ s.responseHolds ln.src response = false ∧ 2 ≤ (s.owner.of ln.src).fails)
      con (Vector.replicate 6 0x123456) [0, 0, 0, 0, 0, 0] { up with owner := { key := some (Vector.replicate 6 0x123456), console := { fails := 2 } } }) := by
  refine ⟨?_, ?_, ?_, ?_⟩ <;> dsimp only <;> repeat' (first | refine And.intro ?_ ?_ | decide +kernel | constructor)

theorem witness_LinesArriveCharacterByCharacter :
    -- clause 1
    ((fun (text : List Byte) (s : State) =>
      s.TakesIn s.chain.upPort ∧ s.farHelmAt s.chain.upPort = false ∧ 120 < text.length)
      (List.replicate 121 0x41) up) ∧
    -- clause 2
    ((fun (p : Port) (text : List Byte) (s : State) =>
      s.TakesIn p ∧ s.farHelmAt p = false ∧ text.length ≤ 120)
      .stern (List.replicate 120 0x41) up) ∧
    -- clause 3
    ((fun (p : Port) (_ : List Byte) (s : State) =>
      s.TakesIn p ∧ s.farHelmAt p = false)
      .bow [0x41] up) ∧
    -- clause 4
    ((fun (p : Port) (_ : FrameArrival) (s : State) =>
      s.TakesIn p ∧ s.farHelmAt p = true)
      .stern .strayEol { up with chain := { up.chain with farHelm := true, farPort := .stern } }) ∧
    -- clause 5
    ((fun (text : List Byte) (x : AddrForm) (s : State) =>
      s.TakesIn s.chain.upPort ∧ s.farHelmAt s.chain.upPort = false ∧ text ≠ [] ∧ text.length ≤ 120 ∧ isSweep (charsOf text) = false ∧ isIgnored (charsOf text) ((charsOf text).any badChar) = false ∧ (takeApart (charsOf text)).sumHolds = true ∧ (takeApart (charsOf text)).sum.isSome = true ∧ (takeApart (charsOf text)).words.head?.bind readAddr = some x ∧ s.verdict { src := .chain, addr := x } = .other)
      [64, 50, 32, 73, 68, 32, 126, 55, 57] (.unit 2) up) ∧
    -- clause 6
    ((fun (c : Byte) (s : State) =>
      s.phase = .running ∧ s.domainOn 106 = true ∧ c ≠ 8 ∧ c ≠ 9 ∧ c ≠ 10 ∧ c ≠ 13 ∧ c ≠ 127)
      0x41 up) ∧
    -- clause 7, framing
    ((fun (x : ConsoleChar) (s : State) =>
      s.phase = .running ∧ s.domainOn 106 = true ∧ (x.framingError = true ∨ x.overrun = true))
      { ch := 0x41, framingError := true } up) ∧
    -- clause 7, overrun
    ((fun (x : ConsoleChar) (s : State) =>
      s.phase = .running ∧ s.domainOn 106 = true ∧ (x.framingError = true ∨ x.overrun = true))
      { ch := 0x41, overrun := true } up) ∧
    -- clause 8
    ((fun (s : State) =>
      s.phase = .running ∧ s.domainOn 106 = true ∧ s.manil.conLastCr = true)
      { up with manil := { conLastCr := true } }) ∧
    -- clause 9
    ((fun (_ : Source) (_ : AddrForm) (w verb : Chars) (t : LineText) =>
      t.words = [w, verb] ∧ t.sumHolds = true ∧ t.spaced = true ∧ t.comment = false ∧ upper verb = "HALT".toList)
      .chain (.unit 5) ("@5".toList) ("haLT".toList) (takeApart "@5 haLT".toList)) ∧
    -- clause 10, room
    ((fun (text : List Byte) (x : AddrForm) (i : Instr) (s : State) =>
      s.TakesIn s.chain.upPort ∧ s.farHelmAt s.chain.upPort = false ∧ text ≠ [] ∧ text.length ≤ 120 ∧ isSweep (charsOf text) = false ∧ isIgnored (charsOf text) ((charsOf text).any badChar) = false ∧ (takeApart (charsOf text)).words.head?.bind readAddr = some x ∧ s.verdict { src := .chain, addr := x } = .mine ∧ lineOf .chain (some x) (takeApart (charsOf text)) false ((charsOf text).any badChar) = some (.inl i) ∧ (∀ q ∈ s.manil.chainQ, q.what.isLeft = true) ∧ s.phase = .running ∧ linesIn s.manil.chainQ < 8)
      ("@1 STATE".toList.map fun c => BitVec.ofNat 8 c.toNat) (.unit 1) (.state { src := .chain, addr := .unit 1 }) up) ∧
    -- clause 10, full
    ((fun (text : List Byte) (x : AddrForm) (i : Instr) (s : State) =>
      s.TakesIn s.chain.upPort ∧ s.farHelmAt s.chain.upPort = false ∧ text ≠ [] ∧ text.length ≤ 120 ∧ isSweep (charsOf text) = false ∧ isIgnored (charsOf text) ((charsOf text).any badChar) = false ∧ (takeApart (charsOf text)).words.head?.bind readAddr = some x ∧ s.verdict { src := .chain, addr := x } = .mine ∧ lineOf .chain (some x) (takeApart (charsOf text)) false ((charsOf text).any badChar) = some (.inl i) ∧ (∀ q ∈ s.manil.chainQ, q.what.isLeft = true) ∧ s.phase = .running ∧ linesIn s.manil.chainQ = 8)
      ("@1 STATE".toList.map fun c => BitVec.ofNat 8 c.toNat) (.unit 1) (.state { src := .chain, addr := .unit 1 }) { up with manil := { chainQ := List.replicate 8 { what := .inl (.halt ln), tides := 0 } } }) ∧
    -- clause 12, room
    ((fun (c : Byte) (x : AddrForm) (i : Instr) (s : State) =>
      s.phase = .running ∧ s.domainOn 106 = true ∧ (c = 13 ∨ c = 10 ∧ s.manil.conLastCr = false) ∧ s.manil.conBad = false ∧ s.manil.conLine.length ≤ 120 ∧ isIgnored (charsOf s.manil.conLine) ((charsOf s.manil.conLine).any badChar) = false ∧ (takeApart (charsOf s.manil.conLine)).words.head?.bind readAddr = some x ∧ s.verdict { src := .console, addr := x } = .mine ∧ lineOf .console (some x) (takeApart (charsOf s.manil.conLine)) false ((charsOf s.manil.conLine).any badChar) = some (.inl i) ∧ (∀ q ∈ s.manil.conQ, q.what.isLeft = true) ∧ linesIn s.manil.conQ < 2)
      13 .self (.id { src := .console, addr := .self }) { up with manil := { conLine := "@. id".toList.map fun c => BitVec.ofNat 8 c.toNat } }) ∧
    -- clause 12, full
    ((fun (c : Byte) (x : AddrForm) (i : Instr) (s : State) =>
      s.phase = .running ∧ s.domainOn 106 = true ∧ (c = 13 ∨ c = 10 ∧ s.manil.conLastCr = false) ∧ s.manil.conBad = false ∧ s.manil.conLine.length ≤ 120 ∧ isIgnored (charsOf s.manil.conLine) ((charsOf s.manil.conLine).any badChar) = false ∧ (takeApart (charsOf s.manil.conLine)).words.head?.bind readAddr = some x ∧ s.verdict { src := .console, addr := x } = .mine ∧ lineOf .console (some x) (takeApart (charsOf s.manil.conLine)) false ((charsOf s.manil.conLine).any badChar) = some (.inl i) ∧ (∀ q ∈ s.manil.conQ, q.what.isLeft = true) ∧ linesIn s.manil.conQ = 2)
      10 .self (.id { src := .console, addr := .self }) { up with manil := { conLine := ("@. id".toList.map fun c => BitVec.ofNat 8 c.toNat), conQ := List.replicate 2 { what := .inl (.halt con), tides := 0 } } }) ∧
    -- clause 11, passes
    ((fun (text : List Byte) (x : AddrForm) (i : Instr) (s : State) =>
      s.TakesIn s.chain.upPort ∧ s.farHelmAt s.chain.upPort = false ∧ text ≠ [] ∧ text.length ≤ 120 ∧ isSweep (charsOf text) = true ∧ isIgnored (charsOf text) ((charsOf text).any badChar) = false ∧ (takeApart (charsOf text)).words.head?.bind readAddr = some x ∧ lineOf .chain (some x) (takeApart (charsOf text)) false ((charsOf text).any badChar) = some (.inl i) ∧ (∀ q ∈ s.manil.chainQ, q.what.isLeft = true) ∧ (takeApart (charsOf text)).sumHolds = true ∧ s.phase = .running ∧ s.verdict { src := .chain, addr := x } = .mine ∧ (!s.chain.dnLink || s.chain.farHelm) = false)
      ("@* STATE".toList.map fun c => BitVec.ofNat 8 c.toNat) .all (.state { src := .chain, addr := .all }) up) ∧
    -- clause 11, ends
    ((fun (text : List Byte) (x : AddrForm) (i : Instr) (s : State) =>
      s.TakesIn s.chain.upPort ∧ s.farHelmAt s.chain.upPort = false ∧ text ≠ [] ∧ text.length ≤ 120 ∧ isSweep (charsOf text) = true ∧ isIgnored (charsOf text) ((charsOf text).any badChar) = false ∧ (takeApart (charsOf text)).words.head?.bind readAddr = some x ∧ lineOf .chain (some x) (takeApart (charsOf text)) false ((charsOf text).any badChar) = some (.inl i) ∧ (∀ q ∈ s.manil.chainQ, q.what.isLeft = true) ∧ (takeApart (charsOf text)).sumHolds = true ∧ s.phase = .running ∧ s.verdict { src := .chain, addr := x } = .mine ∧ (!s.chain.dnLink || s.chain.farHelm) = true)
      ("@* STATE".toList.map fun c => BitVec.ofNat 8 c.toNat) .all (.state { src := .chain, addr := .all }) { up with chain := { up.chain with dnLink := false } }) ∧
    -- clause 11, others
    ((fun (text : List Byte) (x : AddrForm) (i : Instr) (s : State) =>
      s.TakesIn s.chain.upPort ∧ s.farHelmAt s.chain.upPort = false ∧ text ≠ [] ∧ text.length ≤ 120 ∧ isSweep (charsOf text) = true ∧ isIgnored (charsOf text) ((charsOf text).any badChar) = false ∧ (takeApart (charsOf text)).words.head?.bind readAddr = some x ∧ lineOf .chain (some x) (takeApart (charsOf text)) false ((charsOf text).any badChar) = some (.inl i) ∧ (∀ q ∈ s.manil.chainQ, q.what.isLeft = true) ∧ (takeApart (charsOf text)).sumHolds = true ∧ s.phase = .running ∧ s.verdict { src := .chain, addr := x } = .other)
      ("@2-5 STATE".toList.map fun c => BitVec.ofNat 8 c.toNat) (.range 2 5) (.state { src := .chain, addr := .range 2 5 }) up) := by
  refine ⟨?_, ?_, ?_, ?_, ?_, ?_, ?_, ?_, ?_, ?_, ?_, ?_, ?_, ?_, ?_, ?_, ?_⟩ <;> dsimp only <;> repeat' (first | refine And.intro ?_ ?_ | decide +kernel | constructor)

theorem witness_ReadingLinesReply :
    -- clause 1
    ((fun (ln : LineHdr) (s : State) =>
      s.Hears ln ∧ s.Lets ln .read .alwaysReads)
      ln (upIn .drydock)) ∧
    -- clause 2
    ((fun (ln : LineHdr) (n : Word) (x : Record) (s : State) =>
      s.Hears ln ∧ s.Lets ln .read .alwaysReads ∧ s.recorder.recordOf n = some x)
      ln 4 { seq := 4, optime := 0, pcycle := 0, code := 0x41, source := 63, rep := 1, data := 0 } { up with recorder := { nvm := [{ seq := 4, optime := 0, pcycle := 0, code := 0x41, source := 63, rep := 1, data := 0 }], next := 5 } }) ∧
    -- clause 3
    ((fun (ln : LineHdr) (s : State) =>
      s.Hears ln ∧ s.Lets ln .read .always)
      con (upIn .underway)) ∧
    -- clause 4
    ((fun (ln : LineHdr) (s : State) =>
      s.Hears ln ∧ s.Lets ln .read .notDock ∧ "GET" ∈ verbs ∧ (pathInfo 0x1B17).isSome = true)
      ln (upIn .safe)) ∧
    -- clause 5
    ((fun (ln : LineHdr) (a : RegAddr) (s : State) =>
      s.Hears ln ∧ s.Lets ln .read .alwaysReads ∧ (pathInfo a.toNat).isSome = true ∧ s.pathGone a.toNat = false)
      ln 0x0500 up) ∧
    -- clause 6
    ((fun (ln : LineHdr) (paths : List RegAddr) (s : State) =>
      s.Hears ln ∧ s.Lets ln .read .alwaysReads ∧ 1 ≤ paths.length ∧ paths.length ≤ 4 ∧ (∀ a ∈ paths, (pathInfo a.toNat).isSome = true ∧ s.pathGone a.toNat = false))
      ln [0x0500, 0x0501, 0x0802, 0x0803] up) ∧
    -- clause 7
    ((fun (ln : LineHdr) (a : RegAddr) (s : State) =>
      s.Hears ln ∧ s.Lets ln .read .alwaysReads ∧ (pathInfo a.toNat).isSome = true ∧ s.pathGone a.toNat = true)
      ln 0x0901 (upWithout 72)) ∧
    -- clause 8
    ((fun (ln : LineHdr) (_ : String) (s : State) =>
      s.Hears ln ∧ s.Lets ln .read .alwaysReads)
      ln ("NO.SUCH") up) := by
  refine ⟨?_, ?_, ?_, ?_, ?_, ?_, ?_, ?_⟩ <;> dsimp only <;> repeat' (first | refine And.intro ?_ ?_ | exact List.forall_mem_nil _ | refine List.forall_mem_cons.2 ⟨?_, ?_⟩ | refine And.intro ?_ ?_ | decide +kernel | constructor)

theorem witness_SetsStageOrAct :
    -- clause 1
    ((fun (ln : LineHdr) (pairs : List (RegAddr × LineNum)) (s : State) =>
      s.Hears ln ∧ s.setErr ln (pairs.map fun x => (.reg x.1, x.2)) s.manil.tideCount = none ∧ (∀ t ∈ s.manil.tides, t.seq < s.manil.tideCount) ∧ (∀ x ∈ pairs, isStaged x.1.toNat = true))
      ln [(0x0802, { val := 5000 }), (0x0803, { val := 1000 })] up) ∧
    -- clause 2
    ((fun (ln : LineHdr) (v : LineNum) (s : State) =>
      s.Hears ln ∧ s.setErr ln [(regArg Reg.pwmDis, v)] s.manil.tideCount = none ∧ s.Calm)
      ln { val := 0xFFF } up) ∧
    -- clause 3
    ((fun (ln : LineHdr) (k : Fin 12) (v : LineNum) (s : State) =>
      s.Hears ln ∧ 8 ≤ k.val ∧ s.setErr ln [(regArg (Reg.pwmDuty k), v)] s.manil.tideCount = none)
      ln 8 { val := 0xFFFFFF } (upWith [(Reg.pwmCfg 8, 1)] .ready)) ∧
    -- clause 4
    ((fun (ln : LineHdr) (w : Fin 8) (v : LineNum) (s : State) =>
      s.Hears ln ∧ s.setErr ln [(regArg (Reg.mvPtgt w), v)] s.manil.tideCount = none)
      ln 7 { val := 1000 } (upWith [(Reg.mvCfg 7, 2)] .ready)) ∧
    -- clause 5, chain
    ((fun (ln : LineHdr) (v : LineNum) (s : State) =>
      s.Hears ln ∧ s.setErr ln [(regArg Reg.vsel, v)] s.manil.tideCount = none)
      ln { val := 31 } up) ∧
    -- clause 5, console
    ((fun (ln : LineHdr) (v : LineNum) (s : State) =>
      s.Hears ln ∧ s.setErr ln [(regArg Reg.vsel, v)] s.manil.tideCount = none)
      con { val := 31 } up) ∧
    -- clause 6
    ((fun (ln : LineHdr) (k : Fin 6) (v : LineNum) (s : State) =>
      s.Hears ln ∧ s.setErr ln [(regArg (0x1B10 + k.val), v)] s.manil.tideCount = none ∧ (∃ j : Fin 6, j ≠ k ∧ s.owner.partialKey[j] = none))
      ln 5 { val := 9 } up) ∧
    -- clause 7
    ((fun (ln : LineHdr) (v : LineNum) (s : State) =>
      s.Hears ln ∧ s.setErr ln [(regArg 0x071F, v)] s.manil.tideCount = none)
      ln { val := 15 } up) ∧
    -- clause 12
    ((fun (ln : LineHdr) (k : Fin 6) (v : LineNum) (s : State) =>
      s.Hears ln ∧ s.setErr ln [(regArg (0x1B10 + k.val), v)] s.manil.tideCount = none ∧ (∀ j : Fin 6, j ≠ k → (s.owner.partialKey[j]).isSome = true))
      ln 5 { val := 9 } { up with owner := { partialKey := #v[some 1, some 2, some 3, some 4, some 5, none] } }) ∧
    -- clause 8, chain
    ((fun (ln : LineHdr) (a : RegAddr) (v : LineNum) (s : State) =>
      s.Hears ln ∧ s.setErr ln [(.reg a, v)] s.manil.tideCount = none ∧ a = 0x061F)
      ln 0x061F { val := 3 } up) ∧
    -- clause 8, encoders
    ((fun (ln : LineHdr) (a : RegAddr) (v : LineNum) (s : State) =>
      s.Hears ln ∧ s.setErr ln [(.reg a, v)] s.manil.tideCount = none ∧ a = 0x0A22)
      ln 0x0A22 { val := 3 } up) ∧
    -- clause 8, crossings
    ((fun (ln : LineHdr) (a : RegAddr) (v : LineNum) (s : State) =>
      s.Hears ln ∧ s.setErr ln [(.reg a, v)] s.manil.tideCount = none ∧ a = 0x0C1F)
      ln 0x0C1F { val := 3 } up) ∧
    -- clause 8, pairs
    ((fun (ln : LineHdr) (a : RegAddr) (v : LineNum) (s : State) =>
      s.Hears ln ∧ s.setErr ln [(.reg a, v)] s.manil.tideCount = none ∧ a = 0x1923)
      ln 0x1923 { val := 3 } up) ∧
    -- clause 8, recorder
    ((fun (ln : LineHdr) (a : RegAddr) (v : LineNum) (s : State) =>
      s.Hears ln ∧ s.setErr ln [(.reg a, v)] s.manil.tideCount = none ∧ a = 0x1A1F)
      ln 0x1A1F { val := 3 } up) ∧
    -- clause 9, power
    ((fun (ln : LineHdr) (a : RegAddr) (p : PathInfo) (v : LineNum) (s : State) =>
      s.Hears ln ∧ pathInfo a.toNat = some p ∧ p.access = .w1c ∧ s.setErr ln [(.reg a, v)] s.manil.tideCount = none)
      ln (BitVec.ofNat 16 0x0319) ((pathInfo 0x0319).get (by decide)) { val := 3 } { up with power := { up.power with evt := 7 } }) ∧
    -- clause 9, chain
    ((fun (ln : LineHdr) (a : RegAddr) (p : PathInfo) (v : LineNum) (s : State) =>
      s.Hears ln ∧ pathInfo a.toNat = some p ∧ p.access = .w1c ∧ s.setErr ln [(.reg a, v)] s.manil.tideCount = none)
      ln (BitVec.ofNat 16 0x0607) ((pathInfo 0x0607).get (by decide)) { val := 3 } { up with chain := { up.chain with evt := 7 } }) ∧
    -- clause 10, ro
    ((fun (ln : LineHdr) (a : RegAddr) (p : PathInfo) (_ : Int) (s : State) =>
      s.Hears ln ∧ s.Lets ln .write .settings ∧ pathInfo a.toNat = some p ∧ (p.access = .ro ∨ p.access = .lv))
      ln 0x0606 ((pathInfo 0x0606).get (by decide)) 3 up) ∧
    -- clause 10, lv
    ((fun (ln : LineHdr) (a : RegAddr) (p : PathInfo) (_ : Int) (s : State) =>
      s.Hears ln ∧ s.Lets ln .write .settings ∧ pathInfo a.toNat = some p ∧ (p.access = .ro ∨ p.access = .lv))
      ln 0x1606 ((pathInfo 0x1606).get (by decide)) 3 up) ∧
    -- clause 11
    ((fun (ln : LineHdr) (a : RegAddr) (n : Int) (s : State) =>
      s.Hears ln ∧ s.Lets ln .write .settings ∧ isStaged a.toNat = true ∧ (mooredOnly a.toNat = true → s.judged = .moored) ∧ (s.needsAuth a.toNat n = true → s.authorised ln.src = true) ∧ s.pairRange (s.merged [(a, wordOf n)]) a.toNat n = none ∧ s.pairBusy (s.merged [(a, wordOf n)]) a.toNat (wordOf n) = none ∧ (∀ t ∈ s.manil.tides, t.seq < s.manil.tideCount) ∧ (∀ w ∈ s.manil.staged, w.1 ≠ a) ∧ 256 ≤ s.manil.staged.length + (s.manil.tides.map fun t => t.writes.length).sum)
      ln 0x0802 5000 { up with manil := { staged := List.replicate 256 (0x0803, 5) } }) := by
  refine ⟨?_, ?_, ?_, ?_, ?_, ?_, ?_, ?_, ?_, ?_, ?_, ?_, ?_, ?_, ?_, ?_, ?_, ?_, ?_⟩ <;> dsimp only <;> repeat' (first | refine And.intro ?_ ?_ | (intro _ h; rw [List.eq_of_mem_replicate h]; decide +kernel) | decide +kernel | constructor)

theorem witness_SettingsComeIntoForce :
    -- clause 1
    ((fun (ln : LineHdr) (a : RegAddr) (p : PathInfo) (n : Int) (s : State) =>
      s.Hears ln ∧ s.Lets ln .write .notDock ∧ RegFile.wf s.regs = true ∧ pathInfo a.toNat = some p ∧ p.access = .lv ∧ p.admits n = true)
      ln 0x1606 ((pathInfo 0x1606).get (by decide)) 1 (upIn .underway)) ∧
    -- clause 2
    ((fun (ln : LineHdr) (s : State) =>
      s.Hears ln ∧ s.Lets ln .write .settings ∧ RegFile.wf s.regs = true)
      ln { up with manil := { staged := [(0x0802, 5)], tides := [{ seq := 0, due := .atTime 5000000, writes := [(0x0802, 5)] }] } }) ∧
    -- clause 3
    ((fun (ln : LineHdr) (s : State) =>
      s.Hears ln ∧ s.Lets ln .write .moored)
      ln (upWith [(0x0802, 5)])) ∧
    -- clause 4
    ((fun (ln : LineHdr) (s : State) =>
      s.Hears ln ∧ s.Lets ln .write .moored ∧ s.authorised ln.src = true ∧ s.rst.fused = none)
      ln upGranted) ∧
    -- clause 5
    ((fun (ln : LineHdr) (w : BitVec 22) (s : State) =>
      s.Hears ln ∧ s.Lets ln .write .moored ∧ s.rst.fused = some w)
      ln 5 { up with rst := { up.rst with fused := some 5 } }) := by
  refine ⟨?_, ?_, ?_, ?_, ?_⟩ <;> dsimp only <;> repeat' (first | refine And.intro ?_ ?_ | decide +kernel | constructor)

theorem witness_AbortDiscardsStagedWrites :
    -- clause 1
    ((fun (ln : LineHdr) (s : State) =>
      s.Hears ln ∧ s.Lets ln .write .settings)
      ln { up with manil := { staged := [(0x0802, 5)] } }) := by
  refine ?_ <;> dsimp only <;> repeat' (first | refine And.intro ?_ ?_ | decide +kernel | constructor)

theorem witness_ImagesAreLoaded :
    -- clause 1
    ((fun (ln : LineHdr) (k : Slot) (n : Nat) (s : State) =>
      s.Hears ln ∧ s.Lets ln .write .imageWrite ∧ s.authorised ln.src = true ∧ s.boot.openSlot = none ∧ s.boot.running.contains k = false ∧ n ≤ slotSize k ∧ n % 32 = 0)
      ln .pb (slotSize .pb) upGranted) ∧
    -- clause 2
    ((fun (ln : LineHdr) (k : Slot) (n : Nat) (data : List Byte) (s : State) =>
      s.Hears ln ∧ s.Lets ln .write .imageWrite ∧ s.boot.openSlot = some k ∧ (s.boot.slot k).data.length = n ∧ n < (s.boot.slot k).size ∧ data.length = 32)
      ln .la 32 (List.replicate 32 0xFF) { up with boot := { openSlot := some .la, slots := #v[{}, {}, { st := .loading, size := 64, data := List.replicate 32 0 }, {}] } }) ∧
    -- clause 3
    ((fun (ln : LineHdr) (k : Slot) (s : State) =>
      s.Hears ln ∧ s.Lets ln .write .imageWrite ∧ s.boot.openSlot = some k)
      ln .la { up with boot := { openSlot := some .la, slots := #v[{}, {}, { st := .loading, size := 64, data := List.replicate 32 0 }, {}] } }) ∧
    -- clause 4
    ((fun (ln : LineHdr) (k : Slot) (s : State) =>
      s.Hears ln ∧ s.Lets ln .write .imageWrite ∧ s.boot.openSlot = some k)
      ln .la { up with boot := { openSlot := some .la, slots := #v[{}, {}, { st := .loading, size := 64, data := List.replicate 32 0 }, {}] } }) ∧
    -- clause 5
    ((fun (ln : LineHdr) (k : Slot) (s : State) =>
      s.Hears ln ∧ s.Lets ln .write .imageWrite ∧ s.authorised ln.src = true ∧ s.boot.running.contains k = false)
      ln .lb upGranted) ∧
    -- clause 6
    ((fun (ln : LineHdr) (p l : Slot) (s : State) =>
      s.Hears ln ∧ s.Lets ln .write .dockOnly ∧ s.authorised ln.src = true ∧ s.boot.dockReason = 1 ∧ s.boot.bestValid = some (p, l))
      ln .pa .la { upGranted .drydock with boot := { dockReason := 1, slots := #v[{ st := .valid }, {}, { st := .valid }, {}] } }) := by
  refine ⟨?_, ?_, ?_, ?_, ?_, ?_⟩ <;> dsimp only <;> repeat' (first | refine And.intro ?_ ?_ | decide +kernel | constructor)

theorem witness_ResetAndAnchorWait :
    -- clause 1, 1
    ((fun (ln : LineHdr) (n : Nat) (s : State) =>
      s.Hears ln ∧ s.Lets ln .write .reset ∧ 1 ≤ n ∧ n ≤ 4)
      ln 1 up) ∧
    -- clause 1, 4
    ((fun (ln : LineHdr) (n : Nat) (s : State) =>
      s.Hears ln ∧ s.Lets ln .write .reset ∧ 1 ≤ n ∧ n ≤ 4)
      ln 4 up) ∧
    -- clause 2
    ((fun (ln : LineHdr) (s : State) =>
      s.Hears ln ∧ s.Lets ln .write .reset)
      con up) ∧
    -- clause 3
    ((fun (ln : LineHdr) (s : State) =>
      s.Hears ln ∧ s.Lets ln .write .anchor ∧ fld (s.reg Reg.pwrWake) 0 3 ≠ 0)
      ln (upWith [(Reg.pwrWake, 1)])) := by
  refine ⟨?_, ?_, ?_, ?_⟩ <;> dsimp only <;> repeat' (first | refine And.intro ?_ ?_ | decide +kernel | constructor)

theorem witness_AnchorNeedsAWakeSource :
    -- clause 1
    ((fun (ln : LineHdr) (s : State) =>
      s.Hears ln ∧ s.Lets ln .write .anchor ∧ fld (s.reg Reg.pwrWake) 0 3 = 0)
      ln (upWith [(Reg.pwrWake, 8)])) := by
  refine ?_ <;> dsimp only <;> repeat' (first | refine And.intro ?_ ?_ | decide +kernel | constructor)

theorem witness_StateVerbsMoveTheUnit :
    -- clause 1
    ((fun (ln : LineHdr) (s : State) =>
      s.Hears ln ∧ s.Lets ln .write .moor ∧ s.Calm ∧ s.judged = .ready)
      ln (upIn .ready)) ∧
    -- clause 2
    ((fun (ln : LineHdr) (s : State) =>
      s.Hears ln ∧ s.Lets ln .write .moor ∧ s.Calm ∧ s.judged = .safe ∧ s.unit.safe = 8)
      ln { up with unit := { st := .safe, safe := 8 } }) ∧
    -- clause 3
    ((fun (ln : LineHdr) (s : State) =>
      s.Hears ln ∧ s.Lets ln .write .moor ∧ s.judged = .moored)
      con up) ∧
    -- clause 4
    ((fun (ln : LineHdr) (s : State) =>
      s.Hears ln ∧ s.Lets ln .write .arm ∧ s.Calm ∧ s.unit.st = .moored ∧ s.unit.kill = false ∧ s.stopLatched = false ∧ s.clocks.mode ≠ .unset ∧ (bit (s.reg Reg.hldCfg) 1 = true → s.power.hldOk = true) ∧ bit (s.reg Reg.hldCfg) 1 = true)
      ln (upWith [(Reg.hldCfg, 2)])) ∧
    -- clause 6
    ((fun (ln : LineHdr) (s : State) =>
      s.Hears ln ∧ s.Lets ln .write .go ∧ s.Calm ∧ s.clocks.mode = .track ∧ s.clocks.aligned = true ∧ s.anyStale = false ∧ s.unit.st = .ready)
      ln (upIn .ready)) ∧
    -- clause 7
    ((fun (ln : LineHdr) (s : State) =>
      s.Hears ln ∧ s.Lets ln .write .go ∧ s.Calm ∧ s.clocks.mode = .track ∧ s.clocks.aligned = true ∧ s.anyStale = false ∧ s.unit.st = .stranded)
      ln { up with unit := { st := .stranded, strUs := 7 } }) ∧
    -- clause 8, underway
    ((fun (ln : LineHdr) (s : State) =>
      s.Hears ln ∧ s.Lets ln .write .halt ∧ s.Calm ∧ (s.unit.st = .underway ∨ s.unit.st = .stranded))
      ln (upX 3 { decided := [chosen 7] })) ∧
    -- clause 8, stranded
    ((fun (ln : LineHdr) (s : State) =>
      s.Hears ln ∧ s.Lets ln .write .halt ∧ s.Calm ∧ (s.unit.st = .underway ∨ s.unit.st = .stranded))
      ln (upIn .stranded)) ∧
    -- clause 9
    ((fun (ln : LineHdr) (s : State) =>
      s.Hears ln ∧ s.Lets ln .write .halt ∧ s.Calm ∧ s.unit.st = .ready)
      ln (upIn .ready)) ∧
    -- clause 10, kill
    ((fun (ln : LineHdr) (s : State) =>
      s.Hears ln ∧ s.Lets ln .write .arm ∧ s.unit.kill = true)
      ln { up with unit := { kill := true } }) ∧
    -- clause 10, stop
    ((fun (ln : LineHdr) (s : State) =>
      s.Hears ln ∧ s.Lets ln .write .arm ∧ s.unit.kill = false ∧ s.stopLatched = true)
      ln (upPair 3 { latch := true } 0x643 .moored)) ∧
    -- clause 10, time
    ((fun (ln : LineHdr) (s : State) =>
      s.Hears ln ∧ s.Lets ln .write .arm ∧ s.unit.kill = false ∧ s.stopLatched = false ∧ s.clocks.mode = .unset)
      ln { up with clocks := { up.clocks with mode := .unset } }) ∧
    -- clause 10, hldok
    ((fun (ln : LineHdr) (s : State) =>
      s.Hears ln ∧ s.Lets ln .write .arm ∧ s.unit.kill = false ∧ s.stopLatched = false ∧ s.clocks.mode ≠ .unset ∧ bit (s.reg Reg.hldCfg) 1 = true ∧ s.power.hldOk = false)
      ln { upWith [(Reg.hldCfg, 2)] with power := { up.power with hldOk := false } }) ∧
    -- clause 5
    ((fun (ln : LineHdr) (s : State) =>
      s.Hears ln ∧ s.Lets ln .write .arm ∧ s.unit.st ≠ .moored ∧ s.unit.kill = false ∧ s.stopLatched = false ∧ s.clocks.mode ≠ .unset ∧ (bit (s.reg Reg.hldCfg) 1 = true → s.power.hldOk = true))
      ln { up with unit := { st := .safe, safe := 8 }, power := { up.power with anchorDue := some 9000000 } }) := by
  refine ⟨?_, ?_, ?_, ?_, ?_, ?_, ?_, ?_, ?_, ?_, ?_, ?_, ?_, ?_⟩ <;> dsimp only <;> repeat' (first | refine And.intro ?_ ?_ | decide +kernel | constructor)

theorem witness_HoldsAndManualVerbs :
    -- clause 1
    ((fun (ln : LineHdr) (chans : List ChanItem) (s : State) =>
      s.Hears ln ∧ s.Lets ln .write .notDock ∧ s.Calm ∧ s.listErr .all chans = none ∧ (3 : Fin 40) ∈ s.listChans chans ∧ s.held 3 = false)
      ln [.one 3, .range 30 39] (upX 3 { decided := [chosen 7] })) ∧
    -- clause 2
    ((fun (ln : LineHdr) (chans : List ChanItem) (s : State) =>
      s.Hears ln ∧ s.Lets ln .write .notDock ∧ s.Calm ∧ s.listErr .all chans = none)
      ln [.all] { up with unit := { shut := 9 } }) ∧
    -- clause 3
    ((fun (ln : LineHdr) (chans : List ChanItem) (s : State) =>
      s.Hears ln ∧ s.Calm ∧ s.manualErr ln .all chans = none)
      ln [.one 0, .one 31] (upIn .ready)) ∧
    -- clause 4
    ((fun (ln : LineHdr) (chans : List ChanItem) (s : State) =>
      s.Hears ln ∧ s.Calm ∧ s.manualErr ln .all chans = none)
      ln [.one 39] (upWith [(Reg.mvCfg 7, 1)] .ready)) ∧
    -- clause 5, low
    ((fun (ln : LineHdr) (chans : List ChanItem) (f d : Nat) (p : Option Nat) (s : State) =>
      s.Hears ln ∧ s.Calm ∧ s.manualErr ln .sol chans = none ∧ 5 ≤ f ∧ f ≤ 50 ∧ 5 ≤ d ∧ d ≤ 100 ∧ (∀ n, p = some n → n ≤ 99))
      ln [.range 0 31] 5 5 none (upIn .ready)) ∧
    -- clause 5, high
    ((fun (ln : LineHdr) (chans : List ChanItem) (f d : Nat) (p : Option Nat) (s : State) =>
      s.Hears ln ∧ s.Calm ∧ s.manualErr ln .sol chans = none ∧ 5 ≤ f ∧ f ≤ 50 ∧ 5 ≤ d ∧ d ≤ 100 ∧ (∀ n, p = some n → n ≤ 99))
      ln [.one 0] 50 100 (some 99) (upIn .ready)) ∧
    -- clause 6, own
    ((fun (ln : LineHdr) (chans : List ChanItem) (_ : Option ValveEnd) (s : State) =>
      s.Hears ln ∧ s.Calm ∧ s.manualErr ln .valve chans = none)
      ln [.one 39] none (upWith [(Reg.mvCfg 7, 1)] .ready)) ∧
    -- clause 6, open
    ((fun (ln : LineHdr) (chans : List ChanItem) (_ : Option ValveEnd) (s : State) =>
      s.Hears ln ∧ s.Calm ∧ s.manualErr ln .valve chans = none)
      ln [.one 39] (some .open_) (upWith [(Reg.mvCfg 7, 1)] .ready)) ∧
    -- clause 7, m100
    ((fun (ln : LineHdr) (v : Fin 8) (n : Int) (s : State) =>
      s.Hears ln ∧ s.Lets ln .write .manual ∧ s.Calm ∧ (s.valveMode v).runs = true ∧ s.held (chV v) = false ∧ -100 ≤ n ∧ n ≤ 100)
      ln 7 (-100) (upWith [(Reg.mvCfg 7, 1)] .ready)) ∧
    -- clause 7, 100
    ((fun (ln : LineHdr) (v : Fin 8) (n : Int) (s : State) =>
      s.Hears ln ∧ s.Lets ln .write .manual ∧ s.Calm ∧ (s.valveMode v).runs = true ∧ s.held (chV v) = false ∧ -100 ≤ n ∧ n ≤ 100)
      ln 7 (100) (upWith [(Reg.mvCfg 7, 1)] .ready)) := by
  refine ⟨?_, ?_, ?_, ?_, ?_, ?_, ?_, ?_, ?_, ?_⟩ <;> dsimp only <;> repeat' (first | refine And.intro ?_ ?_ | decide +kernel | constructor)

theorem witness_ManualVerbsRespectHolds :
    -- clause 1, sol
    ((fun (ln : LineHdr) (chans : List ChanItem) (c : Fin 40) (s : State) =>
      s.Hears ln ∧ s.Lets ln .write .manual ∧ c ∈ s.listChans chans ∧ s.held c = true ∧ s.modeErr (s.listChans chans) = none ∧ s.listErr .all chans = none ∧ s.listErr .sol chans = none)
      ln [.one 3] 3 { upIn .ready with unit := { st := .ready, shut := 8 } }) ∧
    -- clause 1, valve
    ((fun (ln : LineHdr) (chans : List ChanItem) (c : Fin 40) (s : State) =>
      s.Hears ln ∧ s.Lets ln .write .manual ∧ c ∈ s.listChans chans ∧ s.held c = true ∧ s.modeErr (s.listChans chans) = none ∧ s.listErr .valve chans = none ∧ chans = [.one c.val])
      ln [.one 39] 39 { upWith [(Reg.mvCfg 7, 1)] with unit := { st := .ready, shut := 0x8000000000 } }) := by
  refine ⟨?_, ?_⟩ <;> dsimp only <;> repeat' (first | refine And.intro ?_ ?_ | decide +kernel | constructor)

theorem witness_CrossingsAreLoadedAndRecalled :
    -- clause 1, open
    ((fun (ln : LineHdr) (c : Fin 40) (pos ident : Word) (act : CrossAction) (duty flags : Option Nat) (s : State) =>
      s.Hears ln ∧ s.crossErr ln { val := c.val } { val := pos.toNat } act { val := ident.toNat } (duty.map fun n => { val := n }) (flags.map fun n => { val := n }) = none)
      ln 0 5000 7 .open_ none none (upX 0 { manifest := [{ xing 7 with stale := true }] } .moored)) ∧
    -- clause 1, duty
    ((fun (ln : LineHdr) (c : Fin 40) (pos ident : Word) (act : CrossAction) (duty flags : Option Nat) (s : State) =>
      s.Hears ln ∧ s.crossErr ln { val := c.val } { val := pos.toNat } act { val := ident.toNat } (duty.map fun n => { val := n }) (flags.map fun n => { val := n }) = none)
      ln 31 0 0 .duty (some 5) (some 62) (upIn .underway)) ∧
    -- clause 2
    ((fun (ln : LineHdr) (c : Fin 40) (_ ident : Word) (y : Crossing) (s : State) =>
      s.Hears ln ∧ s.Lets ln .write .cross ∧ s.oddChan c = false ∧ s.notValve c = false ∧ s.crossOff c = false ∧ y ∈ (s.engine.chans[c]).manifest ∧ y.stale = false ∧ y.ident = ident)
      ln 3 5000 7 (xing 7) (upX 3 { manifest := [xing 7] })) ∧
    -- clause 3
    ((fun (ln : LineHdr) (c : Fin 40) (_ ident : Word) (s : State) =>
      s.Hears ln ∧ s.Lets ln .write .cross ∧ s.oddChan c = false ∧ s.notValve c = false ∧ s.crossOff c = false ∧ (s.engine.chans[c]).hasId ident = false ∧ s.depth c ≤ ((s.engine.chans[c]).manifest.filter fun y => !y.stale).length)
      ln 3 5000 9 { upX 3 { manifest := [xing 7] } with regs := [(Reg.xcfg 3, 0x10)] }) ∧
    -- clause 4
    ((fun (ln : LineHdr) (c : Fin 32) (k : Current) (s : State) =>
      s.Hears ln ∧ s.Lets ln .write .notDock ∧ s.Calm ∧ s.isOdd c = false ∧ (s.engine.chans[chS c]).manifest = [] ∧ (s.engine.chans[chS c]).decided = [] ∧ (s.engine.chans[chS c]).cur = some k ∧ k.stage = .cast ∧ k.reverse = false ∧ k.x.action ≠ .close)
      ln 3 (chosen 7 .cast) (upX 3 { cur := some (chosen 7 .cast), level := .open_, sched := true })) ∧
    -- clause 4, close
    ((fun (ln : LineHdr) (c : Fin 32) (k : Current) (s : State) =>
      s.Hears ln ∧ s.Lets ln .write .notDock ∧ s.Calm ∧ s.isOdd c = false ∧ (s.engine.chans[chS c]).manifest = [] ∧ (s.engine.chans[chS c]).decided = [] ∧ (s.engine.chans[chS c]).cur = some k ∧ k.stage = .cast ∧ k.reverse = false ∧ k.x.action = .close ∧ k.before = .open_ ∧ s.unit.st.casting = true ∧ s.held (chS c) = false ∧ s.killed (chS c) = false ∧ (s.sol.chans[c]).fault = 0 ∧ s.domainOn c.val = true ∧ s.keeperHolds = false)
      ln 3 { chosen 7 .cast .close with before := .open_ } (upX 3 { cur := some { chosen 7 .cast .close with before := .open_ }, sched := true })) ∧
    -- clause 5
    ((fun (ln : LineHdr) (v : Fin 8) (k : Current) (s : State) =>
      s.Hears ln ∧ s.Lets ln .write .notDock ∧ s.Calm ∧ (s.engine.chans[chV v]).manifest = [] ∧ (s.engine.chans[chV v]).decided = [] ∧ (s.engine.chans[chV v]).cur = some k ∧ k.stage = .cast ∧ k.reverse = false ∧ (s.limAsserted v .open_ = false ∨ s.limAsserted v .closed = false))
      ln 7 (chosen 7 .cast) (upX 39 { cur := some (chosen 7 .cast), level := .open_, sched := true })) ∧
    -- clause 6
    ((fun (ln : LineHdr) (c : Fin 40) (k : Current) (s : State) =>
      s.Hears ln ∧ s.Lets ln .write .notDock ∧ s.Calm ∧ s.oddChan c = false ∧ (∀ y ∈ (s.engine.chans[c]).manifest, y.ident ≠ k.x.ident) ∧ (s.engine.chans[c]).decided.find? (fun j => decide (j.x.ident = k.x.ident)) = some k)
      ln 3 (chosen 7) (upX 3 { decided := [chosen 7] })) ∧
    -- clause 7
    ((fun (ln : LineHdr) (c : Fin 40) (k : Current) (s : State) =>
      s.Hears ln ∧ s.Lets ln .write .notDock ∧ s.Calm ∧ s.oddChan c = false ∧ (s.engine.chans[c]).manifest = [] ∧ (s.engine.chans[c]).decided = [] ∧ (s.engine.chans[c]).cur = some k ∧ k.stage = .landed ∧ k.reverse = false)
      ln 3 (chosen 7 .landed) (upX 3 { cur := some (chosen 7 .landed), level := .open_, sched := true })) ∧
    -- clause 8
    ((fun (ln : LineHdr) (c : Fin 40) (s : State) =>
      s.Hears ln ∧ s.Lets ln .write .notDock ∧ s.oddChan c = false ∧ s.Calm)
      ln 39 (upX 39 { manifest := [xing 7], decided := [chosen 8] })) ∧
    -- clause 9
    ((fun (ln : LineHdr) (s : State) =>
      s.Hears ln ∧ s.Lets ln .write .notDock ∧ s.Calm)
      ln (upX 3 { manifest := [xing 7], decided := [chosen 8] })) := by
  refine ⟨?_, ?_, ?_, ?_, ?_, ?_, ?_, ?_, ?_, ?_, ?_⟩ <;> dsimp only <;> repeat' (first | refine And.intro ?_ ?_ | decide +kernel | exact fun _ h => nomatch h | constructor)

theorem witness_RecallOfAPendingCrossing :
    -- clause 1
    ((fun (ln : LineHdr) (c : Fin 40) (y : Crossing) (s : State) =>
      s.Hears ln ∧ s.Lets ln .write .notDock ∧ s.oddChan c = false ∧ (s.engine.chans[c]).manifest.find? (fun z => decide (z.ident = y.ident)) = some y)
      ln 3 (xing 7) (upX 3 { manifest := [xing 6, xing 7] })) := by
  refine ?_ <;> dsimp only <;> repeat' (first | refine And.intro ?_ ?_ | decide +kernel | constructor)

theorem witness_SpeedDatesAndTraces :
    -- clause 1, a
    ((fun (ln : LineHdr) (v w : Int) (s : State) =>
      s.Hears ln ∧ s.Lets ln .write .settings ∧ -25000 ≤ v ∧ v ≤ 25000 ∧ -3000 ≤ w ∧ w ≤ 3000)
      ln 25000 (-3000) (upWith [(Reg.odoCfg, 13)])) ∧
    -- clause 1, b
    ((fun (ln : LineHdr) (v w : Int) (s : State) =>
      s.Hears ln ∧ s.Lets ln .write .settings ∧ -25000 ≤ v ∧ v ≤ 25000 ∧ -3000 ≤ w ∧ w ≤ 3000)
      ln (-25000) 3000 (upIn .underway)) ∧
    -- clause 2, leap
    ((fun (ln : LineHdr) (d : DateArg) (s : State) =>
      s.Hears ln ∧ s.Lets ln .write .always ∧ DateOk d = true)
      ln { year := 2000, month := 2, day := 29, hour := 23, minute := 59, second := 59 } up) ∧
    -- clause 2, last
    ((fun (ln : LineHdr) (d : DateArg) (s : State) =>
      s.Hears ln ∧ s.Lets ln .write .always ∧ DateOk d = true)
      ln { year := 2399, month := 12, day := 31, hour := 0, minute := 0, second := 0 } up) ∧
    -- clause 3, day
    ((fun (ln : LineHdr) (d : DateArg) (s : State) =>
      s.Hears ln ∧ s.Lets ln .write .always ∧ DateOk d = false)
      ln { year := 2100, month := 2, day := 29, hour := 0, minute := 0, second := 0 } up) ∧
    -- clause 3, year
    ((fun (ln : LineHdr) (d : DateArg) (s : State) =>
      s.Hears ln ∧ s.Lets ln .write .always ∧ DateOk d = false)
      ln { year := 2400, month := 1, day := 1, hour := 0, minute := 0, second := 0 } up) ∧
    -- clause 4, done
    ((fun (ln : LineHdr) (b : Fin 4) (s : State) =>
      s.Hears ln ∧ s.Lets ln .write .notDock ∧ s.domainOn (93 + b.val) = true ∧ (s.pilot.traces[b]).st.captures = false)
      ln 3 { up with pilot := { up.pilot with traces := upd up.pilot.traces 3 fun x => { x with st := .done, cfg := 0x200, interval := 100, armedAt := 999900, pre := 2, entries := [1, 2, 3] } } }) ∧
    -- clause 4, idle
    ((fun (ln : LineHdr) (b : Fin 4) (s : State) =>
      s.Hears ln ∧ s.Lets ln .write .notDock ∧ s.domainOn (93 + b.val) = true)
      ln 0 up) := by
  refine ⟨?_, ?_, ?_, ?_, ?_, ?_, ?_, ?_⟩ <;> dsimp only <;> repeat' (first | refine And.intro ?_ ?_ | decide +kernel | constructor)

theorem witness_AdoptAndLock :
    -- clause 1, 1
    ((fun (n : Nat) (s : State) =>
      s.Hears { src := .chain, addr := .zero } ∧ s.Lets { src := .chain, addr := .zero } .write .always ∧ 1 ≤ n ∧ n ≤ 128)
      1 { up with chain := { up.chain with addr := 0 } }) ∧
    -- clause 1, 128
    ((fun (n : Nat) (s : State) =>
      s.Hears { src := .chain, addr := .zero } ∧ s.Lets { src := .chain, addr := .zero } .write .always ∧ 1 ≤ n ∧ n ≤ 128)
      128 { up with chain := { up.chain with addr := 0 } }) ∧
    -- clause 2
    ((fun (serial : ChainTime) (_ : Nat) (s : State) =>
      s.Hears { src := .chain, addr := .zero } ∧ serial ≠ s.chain.serial)
      5 3 { up with chain := { up.chain with addr := 0 } }) ∧
    -- clause 3
    ((fun (adr : AddrForm) (s : State) =>
      s.Hears { src := .chain, addr := adr } ∧ s.Lets { src := .chain, addr := adr } .write .notDock)
      .all (upIn .underway)) := by
  refine ⟨?_, ?_, ?_, ?_⟩ <;> dsimp only <;> repeat' (first | refine And.intro ?_ ?_ | decide +kernel | constructor)

theorem witness_LinesAreRefusedByStateAndSource :
    -- clause 1, moored
    ((fun (ln : LineHdr) (a : LineArgs) (s : State) =>
      s.Hears ln ∧ ln.src = .chain ∧ a.Ok ∧ s.power.handover = none ∧ s.judged = .moored)
      ln { path := 0x0802, verb := "GET", num := 0, m := 5, n := 5, chans := [.all], target := none, action := .open_, slot := .pa, data := List.replicate 32 0, date := { year := 2030, month := 1, day := 1, hour := 0, minute := 0, second := 0 } } (upIn .moored)) ∧
    -- clause 1, ready
    ((fun (ln : LineHdr) (a : LineArgs) (s : State) =>
      s.Hears ln ∧ ln.src = .chain ∧ a.Ok ∧ s.power.handover = none ∧ s.judged = .ready)
      ln { path := 0x0802, verb := "GET", num := 0, m := 5, n := 5, chans := [.all], target := none, action := .open_, slot := .pa, data := List.replicate 32 0, date := { year := 2030, month := 1, day := 1, hour := 0, minute := 0, second := 0 } } (upIn .ready)) ∧
    -- clause 1, underway
    ((fun (ln : LineHdr) (a : LineArgs) (s : State) =>
      s.Hears ln ∧ ln.src = .chain ∧ a.Ok ∧ s.power.handover = none ∧ s.judged = .underway)
      ln { path := 0x0802, verb := "GET", num := 0, m := 5, n := 5, chans := [.all], target := none, action := .open_, slot := .pa, data := List.replicate 32 0, date := { year := 2030, month := 1, day := 1, hour := 0, minute := 0, second := 0 } } (upIn .underway)) ∧
    -- clause 1, stranded
    ((fun (ln : LineHdr) (a : LineArgs) (s : State) =>
      s.Hears ln ∧ ln.src = .chain ∧ a.Ok ∧ s.power.handover = none ∧ s.judged = .stranded)
      ln { path := 0x0802, verb := "GET", num := 0, m := 5, n := 5, chans := [.all], target := none, action := .open_, slot := .pa, data := List.replicate 32 0, date := { year := 2030, month := 1, day := 1, hour := 0, minute := 0, second := 0 } } (upIn .stranded)) ∧
    -- clause 1, drydock
    ((fun (ln : LineHdr) (a : LineArgs) (s : State) =>
      s.Hears ln ∧ ln.src = .chain ∧ a.Ok ∧ s.power.handover = none ∧ s.judged = .drydock)
      ln { path := 0x0802, verb := "GET", num := 0, m := 5, n := 5, chans := [.all], target := none, action := .open_, slot := .pa, data := List.replicate 32 0, date := { year := 2030, month := 1, day := 1, hour := 0, minute := 0, second := 0 } } (upIn .drydock)) ∧
    -- clause 1, safe
    ((fun (ln : LineHdr) (a : LineArgs) (s : State) =>
      s.Hears ln ∧ ln.src = .chain ∧ a.Ok ∧ s.power.handover = none ∧ s.judged = .safe)
      ln { path := 0x0802, verb := "GET", num := 0, m := 5, n := 5, chans := [.all], target := none, action := .open_, slot := .pa, data := List.replicate 32 0, date := { year := 2030, month := 1, day := 1, hour := 0, minute := 0, second := 0 } } { up with unit := { st := .safe, safe := 8 } }) ∧
    -- clause 3
    ((fun (ln : LineHdr) (a : LineArgs) (s : State) =>
      s.Hears ln ∧ ln.src = .chain ∧ a.Ok ∧ s.power.handover.isSome = true)
      ln { path := 0x0802, verb := "GET", num := 0, m := 5, n := 5, chans := [.all], target := none, action := .open_, slot := .pa, data := List.replicate 32 0, date := { year := 2030, month := 1, day := 1, hour := 0, minute := 0, second := 0 } } { up with power := { up.power with handover := some { hoAct := 0, hoTime := 5, started := 0, inDrydock := false } } }) ∧
    -- clause 4
    ((fun (_ : Int) (s : State) =>
      s.Hears { src := .chain, addr := .zero } ∧ s.power.handover.isSome = true)
      5 { up with chain := { up.chain with addr := 0 },  power := { up.power with handover := some { hoAct := 0, hoTime := 5, started := 0, inDrydock := false } } }) ∧
    -- clause 5, moored
    ((fun (adr : AddrForm) (a : LineArgs) (s : State) =>
      s.Hears { src := .console, addr := adr } ∧ a.Ok ∧ s.judged ≠ .moored)
      .self { path := 0x0802, verb := "GET", num := 0, m := 5, n := 5, chans := [.all], target := none, action := .open_, slot := .pa, data := List.replicate 32 0, date := { year := 2030, month := 1, day := 1, hour := 0, minute := 0, second := 0 } } (upIn .ready)) ∧
    -- clause 5, lock
    ((fun (adr : AddrForm) (a : LineArgs) (s : State) =>
      s.Hears { src := .console, addr := adr } ∧ a.Ok ∧ s.judged = .moored ∧ s.manil.conLock = true)
      .self { path := 0x0802, verb := "GET", num := 0, m := 5, n := 5, chans := [.all], target := none, action := .open_, slot := .pa, data := List.replicate 32 0, date := { year := 2030, month := 1, day := 1, hour := 0, minute := 0, second := 0 } } { up with manil := { conLock := true } }) ∧
    -- clause 6, unit
    ((fun (adr : AddrForm) (_ : LineArgs) (s : State) =>
      s.live = true ∧ s.manil.chainQ = [] ∧ s.verdict { src := .chain, addr := adr } = .other)
      (.unit 2) { path := 0x0802, verb := "GET", num := 0, m := 5, n := 5, chans := [.all], target := none, action := .open_, slot := .pa, data := List.replicate 32 0, date := { year := 2030, month := 1, day := 1, hour := 0, minute := 0, second := 0 } } up) ∧
    -- clause 6, range
    ((fun (adr : AddrForm) (_ : LineArgs) (s : State) =>
      s.live = true ∧ s.manil.chainQ = [] ∧ s.verdict { src := .chain, addr := adr } = .other)
      (.range 2 128) { path := 0x0802, verb := "GET", num := 0, m := 5, n := 5, chans := [.all], target := none, action := .open_, slot := .pa, data := List.replicate 32 0, date := { year := 2030, month := 1, day := 1, hour := 0, minute := 0, second := 0 } } up) := by
  refine ⟨?_, ?_, ?_, ?_, ?_, ?_, ?_, ?_, ?_, ?_, ?_, ?_⟩ <;> dsimp only <;> repeat' (first | refine And.intro ?_ ?_ | decide +kernel | constructor)

end

end Sys2Proof.Tests
end

/-! PROOFS. Power domains, standby and hold-up (chapter 3). -/
namespace Sys2Proof.Machine

open Sys2Proof

/-! ### A line refused by its own checks -/

/-- Where source and state let a line, its own checks alone refuse it: it answers their first error and does nothing else (R183). -/
theorem State.plainLine_refused_of_lets {s : State} {ln : LineHdr} {c : LineClass} {l : Legal} {e : Err}
    {more : List (Option Err)} (i : Instr) (run : State → State) (hh : s.Hears ln) (hl : s.Lets ln c l)
    (hm : firstErr more = some e) (he : e.code ≠ 10) :
    s.plainLine i ln (s.refuse ln c l more) run = s.reply ln.src (.err e) false := by
  rw [State.refuse_lets hl, hm]
  exact State.line_refused hh he

/-! ### ANCHOR -/

/-- With no wake source in force, ANCHOR's own check names PWR.WAKE (R62). -/
theorem anchor_check_of_no_wake {s : State} (hw : fld (s.reg Reg.pwrWake) 0 3 = 0) :
    firstErr [errWord (decide (fld (s.reg Reg.pwrWake) 0 3 = 0)) 12 "PWR.WAKE"] =
      some { code := 12, detail := [.word "PWR.WAKE"] } := by
  simp [firstErr, errWord, errIf, hw]

/-- Settles O52: the line is let, so the check of its wake sources is the one that answers, and no power-down is scheduled. -/
theorem anchorNeedsAWakeSource : Obligations.AnchorNeedsAWakeSource := by
  intro ln s hh hl hw
  exact congrArg Host.Outcome.next
    (State.plainLine_refused_of_lets (.anchor ln) _ hh hl (anchor_check_of_no_wake hw) (by decide))

end Sys2Proof.Machine

/-! PROOFS. Resets, straps and boot images (chapter 4). -/
namespace Sys2Proof.Machine

open Sys2Proof

/-! ### What every Reach clears and keeps (Table 4.3) -/

/-- What holds of each of the four clearings holds of the clearing of every level. -/
theorem State.clearReach_of_each {P : State → Prop} {s : State} (level : Nat) (h1 : P s.clearReach1) (h2 : P s.clearReach2)
    (h3 : P s.clearReach3) (h4 : P s.clearReach4) : P (s.clearReach level) := by
  unfold State.clearReach
  split
  · exact h4
  · exact h3
  · exact h2
  · exact h1

@[simp] theorem State.clearReach_rst (s : State) (level : Nat) :
    (s.clearReach level).rst = { s.rst with soft := none, halted := false } :=
  State.clearReach_of_each (P := fun t => t.rst = { s.rst with soft := none, halted := false }) level rfl rfl rfl rfl

@[simp] theorem State.clearReach_cal (s : State) (level : Nat) : (s.clearReach level).cal = s.cal :=
  State.clearReach_of_each (P := fun t => t.cal = s.cal) level rfl rfl rfl rfl

@[simp] theorem State.clearReach_nvm (s : State) (level : Nat) : (s.clearReach level).nvm = s.nvm :=
  State.clearReach_of_each (P := fun t => t.nvm = s.nvm) level rfl rfl rfl rfl

/-- Every Reach ends the purser's staging, its tides and both queues of lines. -/
theorem State.clearReach_purser (s : State) (level : Nat) :
    (s.clearReach level).manil.staged = [] ∧ (s.clearReach level).manil.tides = [] ∧
      (s.clearReach level).manil.chainQ = [] ∧ (s.clearReach level).manil.conQ = [] :=
  State.clearReach_of_each (P := fun t => t.manil.staged = [] ∧ t.manil.tides = [] ∧ t.manil.chainQ = [] ∧ t.manil.conQ = []) level
    ⟨rfl, rfl, rfl, rfl⟩ ⟨rfl, rfl, rfl, rfl⟩ ⟨rfl, rfl, rfl, rfl⟩ ⟨rfl, rfl, rfl, rfl⟩

/-! ### The state a reset asserts -/

/-- What a state that only drives shares with the one before, beside `Drives.same`. -/
theorem Drives.same_stores {s t : State} (h : Drives s t) :
    t.clocks = s.clocks ∧ t.manil.staged = s.manil.staged ∧ t.manil.tides = s.manil.tides ∧ t.cal = s.cal ∧ t.nvm = s.nvm := by
  have e := h.eq
  simp only [State.still, State.mk.injEq, Manil.mk.injEq] at e
  simp_all

/-- The reset controller with a reset asserted (R81, R82, R90). -/
def State.rstAsserted (s : State) (cause level lowUs : Nat) : ResetCtl :=
  { s.rst with
    soft := none, halted := false, cause := BitVec.ofNat 4 cause, level := level, fromStep := s.restartStep level
    assertedAt := s.cdUs, wdtSince := s.clk, activeUntil := Nat.max s.rst.activeUntil (s.clk + lowUs)
    holdUntil := Nat.max (s.clk + 100) (Nat.max s.rst.activeUntil (s.clk + lowUs)) }

/-- A reset clears what its Reach covers, asserts the reset controller, and moves no more than outputs beside (R81, R87). -/
theorem State.resetAt_drives (s : State) (cause level lowUs : Nat) :
    Drives { s.clearReach level with phase := .inReset, rst := s.rstAsserted cause level lowUs } (s.resetAt cause level lowUs) := by
  refine State.refresh_still ⟨?_⟩
  simp [State.still, State.rstAsserted]

@[simp] theorem State.resetAt_rst (s : State) (cause level lowUs : Nat) :
    (s.resetAt cause level lowUs).rst = s.rstAsserted cause level lowUs := by
  obtain ⟨-, -, -, hrst, -⟩ := (s.resetAt_drives cause level lowUs).same
  exact hrst

/-- A reset that acts is asserted at its cause and Reach (R81, R87, R91). -/
theorem State.resetAt_asserts (s : State) (cause level lowUs : Nat) :
    s.asserts (s.resetAt cause level lowUs) cause level := by
  obtain ⟨hchain, hcon, -, hrst, hregs, hphase, htime, -⟩ := (s.resetAt_drives cause level lowUs).same
  obtain ⟨hclocks, hstaged, htides, hcal, hnvm⟩ := (s.resetAt_drives cause level lowUs).same_stores
  obtain ⟨nostaged, notides, nochain, nocon⟩ := s.clearReach_purser level
  exact ⟨hphase, congrArg _ hrst, congrArg _ hrst, congrArg _ hrst, hrst ▸ Nat.le_max_left .., hregs, htime, hclocks,
    hstaged.trans nostaged, htides.trans notides, hchain.trans nochain, hcon.trans nocon, congrArg _ hrst,
    hcal.trans (s.clearReach_cal level), hnvm.trans (s.clearReach_nvm level)⟩

/-- The assertion is held for as long as its source is active (R81, R82). -/
theorem State.resetAt_held (s : State) (cause level lowUs : Nat) :
    s.clk + lowUs ≤ (s.resetAt cause level lowUs).rst.holdUntil := by
  rw [State.resetAt_rst]
  exact (Nat.le_max_right ..).trans (Nat.le_max_right ..)

/-! ### A source that asserts -/

/-- A source that counts for no failed boot, taken where it asserts, resets the unit, or the RESET line does that goes before it (R90). -/
theorem State.assertReset_taken {s : State} {cause level : Nat} (lowUs : Nat) (hb : s.failedBoot cause = false)
    (ht : s.takesFirst cause level = true) :
    s.assertReset cause level lowUs = s.resetAt (s.strongest cause level).1 (s.strongest cause level).2 lowUs := by
  rw [State.takesFirst] at ht
  simp [State.assertReset, hb, ht]

/-- Such a source is asserted first, and holds the assertion for as long as it is active (R81, R90). -/
theorem State.assertReset_assertsFirst {s : State} {cause level : Nat} (lowUs : Nat) (hb : s.failedBoot cause = false)
    (ht : s.takesFirst cause level = true) :
    s.assertsFirst (s.assertReset cause level lowUs) cause level ∧
      s.clk + lowUs ≤ (s.assertReset cause level lowUs).rst.holdUntil := by
  rw [State.assertReset_taken lowUs hb ht]
  exact ⟨s.resetAt_asserts .., s.resetAt_held ..⟩

/-! ### nRST (R82) -/

/-- An nRST low that ends a boot is no failed boot (R101). -/
theorem State.failedBoot_pin (s : State) : s.failedBoot 5 = false := by
  simp [State.failedBoot]

/-- Below 1 µs nRST is ignored. -/
theorem execPin_short {ns : Nat} (s : State) (h : ns < 1000) : execPin ns s = .next s := by
  simp [execPin, h]

/-- From 5 µs nRST asserts its reset. -/
theorem execPin_long {ns : Nat} (s : State) (h : 5000 ≤ ns) :
    execPin ns s = .next (s.assertReset 5 (s.reachOf 5) (ns / 1000)) := by
  simp [execPin, show ¬ ns < 1000 by omega, show ¬ ns < 5000 by omega]

/-- From 1 µs nRST has no effect or asserts its reset, and nothing else. -/
theorem execPin_of_filtered {ns : Nat} (s : State) (h : 1000 ≤ ns) :
    execPin ns s = .next s ∨ execPin ns s = .next (s.assertReset 5 (s.reachOf 5) (ns / 1000)) := by
  unfold execPin
  rw [if_neg (by omega)]
  split
  · exact .inl rfl
  · exact .inr rfl

/-- Settles O17: by the three lengths of the pulse; where nRST asserts, R90 takes it, so its reset is asserted and held. -/
theorem pinPulsesResetOrDoNothing : Obligations.PinPulsesResetOrDoNothing := by
  intro ns s
  have resets (ht : s.takesFirst 5 (s.reachOf 5) = true) (h : exec (.pin ns) s = .next (s.assertReset 5 (s.reachOf 5) (ns / 1000))) :
      Answers (exec (.pin ns) s) fun t => s.assertsFirst t 5 (s.reachOf 5) ∧ s.clk + ns / 1000 ≤ t.rst.holdUntil :=
    ⟨_, h, State.assertReset_assertsFirst _ s.failedBoot_pin ht⟩
  refine ⟨?short, ?long, ?between⟩
  case short => exact execPin_short s
  case long => exact fun h ht => resets ht (execPin_long s h)
  case between => exact fun h _ ht => (execPin_of_filtered s h).imp_right (resets ht)

end Sys2Proof.Machine

/-! PROOFS. The Manil command language (chapter 7). -/
namespace Sys2Proof.Machine

open Sys2Proof

/-! ### A line that has its effect -/

/-- A let line with no check of its own has its effect and replies OK, whatever it does beside the queue of its source, the replies held for a
muster and the RESET line that waits (R183). -/
theorem State.plainLine_replies_of_lets {s : State} {ln : LineHdr} {c : LineClass} {l : Legal} (i : Instr) {run : State → State}
    (hh : s.Hears ln) (hl : s.Lets ln c l) (hqueue : (run s).manil.queue ln.src = s.manil.queue ln.src)
    (hheld : (run s).manil.held = s.manil.held) (hsoft : (run s).rst.soft = s.rst.soft) :
    s.plainLine i ln (s.refuse ln c l) run = (run s).reply ln.src (.ok []) false := by
  have allowed : s.refuse ln c l = none := State.refuse_lets hl []
  rw [allowed]
  exact State.line_runs (b := .ok []) hh rfl (hqueue.trans hh.first) (hheld.trans hh.held) (hsoft.trans hh.soft) (fun _ e => nomatch e)

/-! ### Staged writes discarded (R188) -/

@[simp] theorem State.unstage_staged (s : State) : s.unstage.manil.staged = [] := rfl

@[simp] theorem State.unstage_tides (s : State) :
    s.unstage.manil.tides = s.manil.tides.map (fun t => { t with writes := [] }) := rfl

@[simp] theorem State.unstage_held (s : State) : s.unstage.manil.held = s.manil.held := rfl

@[simp] theorem State.unstage_rst (s : State) : s.unstage.rst = s.rst := rfl

@[simp] theorem State.unstage_queue (s : State) (src : Source) : s.unstage.manil.queue src = s.manil.queue src := by
  cases src <;> rfl

/-- Discarding what is staged touches the staged writes and the pending tides only. -/
theorem State.unstage_frame (s : State) :
    s.unstage = { s with manil := { s.manil with staged := [], tides := s.unstage.manil.tides } } := rfl

/-- Settles O49: the line is let and has no check of its own, and what it discards holds up neither its queue nor its reply. -/
theorem abortDiscardsStagedWrites : Obligations.AbortDiscardsStagedWrites := by
  intro ln s hh hl
  have replies : exec (.abort ln) s = .next (s.unstage.reply ln.src (.ok []) false) :=
    congrArg Host.Outcome.next
      (State.plainLine_replies_of_lets (.abort ln) hh hl (s.unstage_queue ln.src) s.unstage_held (congrArg _ s.unstage_rst))
  exact ⟨s.unstage, replies, s.unstage_staged, s.unstage_tides, s.unstage_frame⟩

end Sys2Proof.Machine

/-! PROOFS. Unit states and authority (chapter 8). -/
namespace Sys2Proof.Machine

open Sys2Proof

/-! ### Checks a line passes -/

@[simp] theorem firstErr_cons_none (checks : List (Option Err)) : firstErr (none :: checks) = firstErr checks := rfl

@[simp] theorem firstErr_cons_some (e : Err) (checks : List (Option Err)) : firstErr (some e :: checks) = some e := rfl

/-- Checks that are passed leave the refusal to those behind them (R183). -/
theorem firstErr_append_of_passed {passed : List (Option Err)} (h : ∀ o ∈ passed, o = none) (checks : List (Option Err)) :
    firstErr (passed ++ checks) = firstErr checks := by
  induction passed with
  | nil => rfl
  | cons o os ih =>
    obtain ⟨rfl, hos⟩ := List.forall_mem_cons.mp h
    exact ih hos

/-- A number without a suffix earns no ERR 10 UNIT. -/
@[simp] theorem unitErr_bare (n : Int) (u : Option Suffix) : unitErr { val := n } u = none := by
  simp [unitErr, errWord, errIf]

/-- A number within its range earns no ERR 12 RANGE. -/
theorem rangeErr_within {n lo hi : Int} (hlo : lo ≤ n) (hhi : n ≤ hi) (name : String) :
    rangeErr { val := n } lo hi name = none := by
  simp [rangeErr, errWord, errIf, hlo, hhi]

/-- A phase without a suffix, or none at all, earns no ERR 10 UNIT (R172). -/
theorem phase_unit_passed (p : Option Int) :
    (p.map fun n => ({ val := n } : LineNum)).bind (unitErr · (some .percent)) = none := by
  cases p with
  | none => rfl
  | some n => exact unitErr_bare n _

/-- A phase within its range, or none at all, earns no ERR 12 RANGE. -/
theorem phase_range_passed {p : Option Int} (hp : ∀ n ∈ p, 0 ≤ n ∧ n ≤ 99) :
    (p.map fun n => ({ val := n } : LineNum)).bind (rangeErr · 0 99 "PHASE") = none := by
  cases p with
  | none => rfl
  | some n =>
    obtain ⟨hlo, hhi⟩ := hp n rfl
    exact rangeErr_within hlo hhi _

/-! ### A channel given as a number -/

@[simp] theorem chanNum_val (c : Fin 40) : chanNum { val := c.val } = c := by
  simp [chanNum]

/-- A channel argument earns the refusals of a list that names that channel alone. -/
theorem State.chanErr_val (s : State) (k : ChanClass) (c : Fin 40) : s.chanErr k { val := c.val } = s.listErr k [.one c.val] := by
  have hc : (c.val : Int) < 40 := by omega
  simp [State.chanErr, natOf, State.listErr, hc]

/-- Where no valve of a list stands in a mode that forbids a manual verb, none of its channels does (R308). -/
theorem State.modeErr_singleton {s : State} {cs : List (Fin 40)} {c : Fin 40} (hc : c ∈ cs) (h : s.modeErr cs = none) :
    s.modeErr [c] = none := by
  simp only [State.modeErr, errWord, errIf, ite_eq_right_iff, reduceCtorEq, imp_false, Bool.not_eq_true, List.any_eq_false,
    List.forall_mem_singleton] at h ⊢
  exact h c hc

/-! ### Manual verbs and holds (R217) -/

/-- ERR 18 ACTIVE SHUT, the refusal of a manual verb that names a held channel (R217). -/
def shutRefusal : Err := { code := 18, detail := [.word "SHUT"] }

/-- One held channel among those named earns ERR 18 ACTIVE SHUT (R217). -/
theorem State.shutErr_of_held {s : State} {cs : List (Fin 40)} {c : Fin 40} (hc : c ∈ cs) (hheld : s.held c = true) :
    s.shutErr cs = some shutRefusal := by
  have named : cs.any s.held = true := List.any_eq_true.mpr ⟨c, hc, hheld⟩
  simp [State.shutErr, errWord, errIf, named, shutRefusal]

/-- A let manual line that passes its other checks is refused for the channel it names that is held (R183, R217). -/
theorem State.refuse_manual_of_held {s : State} {ln : LineHdr} {passed : List (Option Err)} {cs : List (Fin 40)} {c : Fin 40}
    (hl : s.Lets ln .write .manual) (hpassed : ∀ o ∈ passed, o = none) (hc : c ∈ cs) (hheld : s.held c = true) :
    s.refuse ln .write .manual (passed ++ [s.shutErr cs]) = some shutRefusal := by
  rw [State.refuse_lets hl, firstErr_append_of_passed hpassed, State.shutErr_of_held hc hheld, firstErr_cons_some]

/-- A manual verb on a channel list whose items, modes and further arguments earn no refusal is refused for a held channel of it. -/
theorem State.manualErr_of_held {s : State} {ln : LineHdr} {k : ChanClass} {chans : List ChanItem} {more : List (Option Err)}
    {c : Fin 40} (hl : s.Lets ln .write .manual) (hlist : s.listErr k chans = none) (hmode : s.modeErr (s.listChans chans) = none)
    (hmore : ∀ o ∈ more, o = none) (hc : c ∈ s.listChans chans) (hheld : s.held c = true) :
    s.manualErr ln k chans more = some shutRefusal :=
  State.refuse_manual_of_held hl (List.forall_mem_cons.mpr ⟨hlist, List.forall_mem_cons.mpr ⟨hmode, hmore⟩⟩) hc hheld

/-- A heard line that earns ERR 18 ACTIVE SHUT answers it and does nothing else (R184). -/
theorem State.plainLine_refuses_shut {s : State} {ln : LineHdr} {refusal : Option Err} (i : Instr) (run : State → State)
    (hh : s.Hears ln) (hr : refusal = some shutRefusal) :
    Refuses s (.next (s.plainLine i ln refusal run)) ln.src shutRefusal := by
  subst hr
  exact congrArg Host.Outcome.next (State.line_refused hh (by decide))

/-- Settles O55: a let manual verb passes its other checks, so the check for held channels, the last of each, is the one that
answers. -/
theorem manualVerbsRespectHolds : Obligations.ManualVerbsRespectHolds := by
  intro ln chans c s hh hl hc hheld hmode
  have onList {k : ChanClass} {more : List (Option Err)} (hlist : s.listErr k chans = none) (hmore : ∀ o ∈ more, o = none) :
      s.manualErr ln k chans more = some shutRefusal :=
    State.manualErr_of_held hl hlist hmode hmore hc hheld
  refine ⟨?openClose, ?pulse, ?home, ?drive⟩
  case openClose =>
    intro hlist
    have refused := onList hlist (more := []) (by simp)
    exact ⟨State.plainLine_refuses_shut _ _ hh refused, State.plainLine_refuses_shut _ _ hh refused⟩
  case pulse =>
    intro hlist f d p hf hf' hd hd' hp
    have freq : rangeErr { val := f } 5 50 "FREQ" = none := rangeErr_within (by omega) (by omega) _
    have duty : rangeErr { val := d } 5 100 "DUTY" = none := rangeErr_within (by omega) (by omega) _
    have phase : ∀ n ∈ (p : Option Int), 0 ≤ n ∧ n ≤ 99 := by
      cases p with
      | none => exact fun _ h => nomatch h
      | some m =>
        rintro _ ⟨⟩
        have := hp m rfl
        omega
    have refused := onList hlist (List.forall_mem_cons.mpr ⟨freq, List.forall_mem_cons.mpr ⟨duty,
      List.forall_mem_singleton.mpr (phase_range_passed phase)⟩⟩)
    refine State.plainLine_refuses_shut _ _ hh ?_
    rw [unitErr_bare, unitErr_bare, phase_unit_passed, refused]
    simp only [firstErr_cons_none, firstErr_cons_some]
  case home =>
    intro hlist target
    exact State.plainLine_refuses_shut _ _ hh (onList hlist (by simp))
  case drive =>
    rintro rfl hlist n hn hn'
    have passed : ∀ o ∈ [s.chanErr .valve { val := c.val }, s.modeErr [c], rangeErr { val := n } (-100) 100 "DUTY"],
        o = none := by
      simp [State.chanErr_val, hlist, State.modeErr_singleton hc hmode, rangeErr_within hn hn']
    refine State.plainLine_refuses_shut _ _ hh ?_
    rw [unitErr_bare, unitErr_bare, firstErr_cons_none, firstErr_cons_none, chanNum_val]
    exact congrArg (firstErr [·]) (State.refuse_manual_of_held hl passed (List.mem_singleton_self c) hheld)

end Sys2Proof.Machine

/-! PROOFS. Crossings and their recall (chapter 10). -/
namespace Sys2Proof.Machine

open Sys2Proof

/-! ### The arguments of a recall -/

/-- The word that holds the number of a word is that word. -/
@[simp] theorem wordOf_toNat (w : Word) : wordOf w.toNat = w := by
  simp [wordOf]

/-- A crossing id stands within the range that its argument allows (R251, R271). -/
theorem rangeErr_ident (w : Word) : rangeErr { val := w.toNat } 0 0xFFFFFF "ID" = none :=
  rangeErr_within (by omega) (by have := w.isLt; omega) _

/-- A channel named by its number is the one channel that the item covers. -/
theorem State.mem_itemChans_one {s : State} {c d : Fin 40} : d ∈ s.itemChans (.one c.val) ↔ d = c := by
  simp [State.itemChans, allChans, Fin.ext_iff]

/-- A channel argument names any channel but the odd member of a pair (R174, R300). -/
theorem State.chanErr_all_passed {s : State} {c : Fin 40} (hodd : s.oddChan c = false) : s.chanErr .all { val := c.val } = none := by
  have inRange : ¬ 40 ≤ c.val := by omega
  have noOdd : (s.itemChans (.one c.val)).any s.oddChan = false := by
    simp [State.mem_itemChans_one, hodd]
  rw [State.chanErr_val]
  simp [State.listErr, State.itemErr, firstErr, errIf, errWord, inRange, noOdd, ChanClass.has]

/-! ### What a recall finds (R271) -/

/-- A crossing that its manifest holds is found pending, whatever else of the channel has its id. -/
theorem XChan.found_pending {x : XChan} {y : Crossing} (h : x.manifest.find? (fun z => decide (z.ident = y.ident)) = some y) :
    x.found y.ident = .pending y := by
  simp [XChan.found, h]

/-- A let recall of a crossing that its channel holds, with a channel in place, earns no refusal (R183, R271). -/
theorem State.refuse_recall_of_found {s : State} {ln : LineHdr} {c : Fin 40} {n : Word} (hl : s.Lets ln .write .notDock)
    (hodd : s.oddChan c = false) (hf : (s.engine.chans[c]).found n ≠ .gone) :
    s.refuse ln .write .notDock
      [s.chanErr .all { val := c.val }, rangeErr { val := n.toNat } 0 0xFFFFFF "ID",
       errIf (decide ((s.engine.chans[c]).found n = .gone)) 21 [.num n.toNat]] = none := by
  have held : decide ((s.engine.chans[c]).found n = .gone) = false := decide_eq_false hf
  rw [State.refuse_lets hl, State.chanErr_all_passed hodd, rangeErr_ident, held]
  rfl

/-- A heard and let recall takes back the crossing it finds and replies with the stage it found, where taking it back moves no more than
outputs (R271). -/
theorem execRecallOne_replies {s : State} {ln : LineHdr} {c : Fin 40} {n : Word} {f : Found} (hh : s.Hears ln)
    (hl : s.Lets ln .write .notDock) (hodd : s.oddChan c = false) (hf : (s.engine.chans[c]).found n = f) (hgone : f ≠ .gone)
    (hd : Drives s (s.takeBack c f)) :
    execRecallOne ln { val := c.val } { val := n.toNat } s =
      .next ((s.takeBack c f).reply ln.src (.ok [.word "RECALL", .num c.val, .num n.toNat, .word f.word]) false) := by
  subst hf
  have allowed := State.refuse_recall_of_found hl hodd hgone
  simp only [execRecallOne, chanNum_val, wordOf_toNat, unitErr_bare, firstErr_cons_none, allowed]
  exact congrArg Host.Outcome.next (State.line_drives hh rfl hd (fun _ e => nomatch e))

/-! ### A pending crossing (R272) -/

/-- Taking back a pending crossing takes it from its manifest and does nothing else. -/
theorem State.takeBack_pending (s : State) (c : Fin 40) (y : Crossing) :
    s.takeBack c (.pending y) = s.modX c fun x => { x with manifest := x.manifest.erase y } := rfl

/-- Settles O57: the line is let and finds its crossing pending, and taking that back moves no output. -/
theorem recallOfAPendingCrossing : Obligations.RecallOfAPendingCrossing := by
  intro ln c y s hh hl hodd hy
  have drives : Drives s (s.takeBack c (.pending y)) := State.modX_still (Drives.refl s) c _
  exact ⟨_, execRecallOne_replies hh hl hodd (XChan.found_pending hy) (by simp) drives, s.takeBack_pending c y⟩

end Sys2Proof.Machine
